-- ==== Sys2Proof/Word.lean ====
section
/-! DEFINITION. The plain word types of the LB-2608: bytes, dwords, tags, slot numbers, timebase counts. -/

namespace Sys2Proof

/-- One byte of a frame (R179). -/
abbrev Byte := BitVec 8

/-- One dword of data (00_scope, Terms). -/
abbrev Dword := BitVec 32

/-- A transaction tag, 0..255 (R1). -/
abbrev Tag := BitVec 8

/-- A slot number, 0..7 (00_scope, Terms). -/
abbrev SlotId := Fin 8

/-- A count of the 32-bit microsecond timebase (R199). -/
abbrev Micros := BitVec 32

/-- A configuration dword offset, 0..1023 (R1). -/
abbrev Offset := BitVec 10

/-- A byte mask: bit n stands for byte n of the dword (R1, R114). -/
abbrev ByteMask := BitVec 4

/-- The all-ones dword of a fill answer (R10, R34). -/
abbrev Dword.ones : Dword := 0xFFFFFFFF#32

end Sys2Proof
end

