-- ==== Sys2Proof/Syntax.lean ====
section
/-! DEFINITION. The commands of the LB-2608: the transactions they carry (R1, R2), the requests of the management link
(section 10.3), and Instr, one constructor per row of spec/opcode_table.json. -/

namespace Sys2Proof

/-- The kinds of a request with the fields each carries (R1). A memory write's length is the number of its data dwords. -/
inductive TxKind where
  | memRead (addr : BitVec 48) (len : Nat)
  | memWrite (addr : BitVec 48) (data : List Dword)
  | ioRead (addr : BitVec 32)
  | ioWrite (addr : BitVec 32) (mask : ByteMask) (data : Dword)
  | cfgRead (offset : Offset)
  | cfgWrite (offset : Offset) (mask : ByteMask) (data : Dword)
  | message
  deriving DecidableEq, Repr

/-- A request that crosses a slot channel (R1). Its direction and requester are those of the command or output that carries it. -/
structure Request where
  tag : Tag
  kind : TxKind
  deriving DecidableEq, Repr

/-- The requester of a request on the card side (R1). -/
inductive Requester where
  | host | part | card
  deriving DecidableEq, Repr

/-- The status of a completion (R2). -/
inductive CplStatus where
  | success | unsupported | abort | retry
  deriving DecidableEq, Repr

/-- A completion that crosses a slot channel (R2). -/
structure Completion where
  tag : Tag
  status : CplStatus
  data : List Dword
  final : Bool
  deriving DecidableEq, Repr

/-- Which requester identity a card completion is addressed to: a forwarded host request or a replay write (R1). -/
inductive Addressee where
  | host | part
  deriving DecidableEq, Repr

/-- The quantity on a rail channel, `num / (den + 1)` in the channel's unit (mV or mA): any rational (R164). -/
structure Quantity where
  num : Int
  den : Nat
  deriving DecidableEq, Repr

/-- The 28 bytes of a policy record as SLOT.SET carries them (section 10.3). -/
structure RawPolicy where
  policy : Byte
  lapse : Byte
  decisionTime : BitVec 16
  firstKind : Byte
  maxAttempts : Byte
  quota : Byte
  slotTimeout : BitVec 16
  drain : BitVec 16
  fill : Byte
  linkGrace : Byte
  resetPulse : BitVec 16
  minOff : BitVec 16
  dischargeTimeout : BitVec 16
  ramp : BitVec 16
  training : BitVec 16
  currentLimit : BitVec 16
  demand : Byte
  calertEnable : Byte
  autoPower : Byte
  deriving DecidableEq, Repr

/-- The fields of SCORE.SET (section 10.3). -/
structure RawScore where
  timeout : Byte
  stray : Byte
  malformed : Byte
  errant : Byte
  linkDown : Byte
  warn : Byte
  fence : Byte
  decayEpoch : BitVec 16
  deriving DecidableEq, Repr

/-- A request of the management link with its fields after the slot byte (section 10.3). A count field is the length of its list. -/
inductive BmcRequest where
  | id (holdOff : Option Byte)
  | slotGet
  | slotSet (record : RawPolicy)
  | fence
  | recover (kind : Byte)
  | quar
  | pwrOn
  | pwrOff
  | winSet (pairs : List (BitVec 40 × BitVec 40))
  | denySet (pairs : List (BitVec 40 × BitVec 40))
  | budgetSet (budget : Byte)
  | scoreSet (params : RawScore)
  | imgRead (index : Byte)
  | imgPut (offset : BitVec 16) (value : Dword) (mask : Byte)
  | imgDrop
  | filterSet (ranges : List (BitVec 16 × BitVec 16))
  | pinMode (mode : Byte)
  | pinLoad (pwren clken crst attn : Byte)
  | pinSample
  | railRead
  | reportTake
  | partReset
  deriving DecidableEq, Repr

/-- The commands of the part: one constructor per row of spec/opcode_table.json. The last 22 are the requests of the
management link, each standing for its complete frame with slot byte `sb` (log 18). -/
inductive Instr where
  | hostRequest (slot : SlotId) (r : Request)
  | holdExpiry (slot : SlotId)
  | cardCompletion (slot : SlotId) (dest : Addressee) (c : Completion)
  | entryExpiry (slot : SlotId) (tag : Tag)
  | cardRequest (slot : SlotId) (r : Request)
  | hostCompletion (slot : SlotId) (c : Completion)
  | ghostDeadline (slot : SlotId)
  | linkDown (slot : SlotId)
  | linkUp (slot : SlotId)
  | linkGraceExpiry (slot : SlotId)
  | upstreamReset (slot : SlotId)
  | upstreamRelease (slot : SlotId)
  | decayEvent
  | calertAssertion (slot : SlotId)
  | calertRelease (slot : SlotId)
  | drainExpiry (slot : SlotId)
  | decisionExpiry (slot : SlotId)
  | minOffExpiry (slot : SlotId)
  | dischargeTimeout (slot : SlotId)
  | rampExpiry (slot : SlotId)
  | resetPulseExpiry (slot : SlotId)
  | trainingTimeout (slot : SlotId)
  | restoreTimeout (slot : SlotId)
  | resendTimerExpiry (slot : SlotId)
  | replayWriteDeadline (slot : SlotId)
  | prsntChange (slot : SlotId) (asserted : Bool)
  | presenceDebounceExpiry (slot : SlotId)
  | conversionEnd (q : Quantity)
  | pwrenChange (slot : SlotId) (level : Bool)
  | attnBlinkToggle (slot : SlotId)
  | powerOnReset
  | endOfPowerOnReset (rate autoon : Bool)
  | controlReset
  | cresetRelease
  | characterReceived (value : Byte) (stopBit : Bool)
  | gapTimerExpiry
  | replyStart
  | replySent
  | id (sb : Byte) (holdOff : Option Byte)
  | slotGet (sb : Byte)
  | slotSet (sb : Byte) (record : RawPolicy)
  | fence (sb : Byte)
  | recover (sb : Byte) (kind : Byte)
  | quar (sb : Byte)
  | pwrOn (sb : Byte)
  | pwrOff (sb : Byte)
  | winSet (sb : Byte) (pairs : List (BitVec 40 × BitVec 40))
  | denySet (sb : Byte) (pairs : List (BitVec 40 × BitVec 40))
  | budgetSet (sb : Byte) (budget : Byte)
  | scoreSet (sb : Byte) (params : RawScore)
  | imgRead (sb : Byte) (index : Byte)
  | imgPut (sb : Byte) (offset : BitVec 16) (value : Dword) (mask : Byte)
  | imgDrop (sb : Byte)
  | filterSet (sb : Byte) (ranges : List (BitVec 16 × BitVec 16))
  | pinMode (sb : Byte) (mode : Byte)
  | pinLoad (sb : Byte) (pwren clken crst attn : Byte)
  | pinSample (sb : Byte)
  | railRead (sb : Byte)
  | reportTake (sb : Byte)
  | partReset (sb : Byte)
  deriving DecidableEq, Repr

end Sys2Proof
end

