-- ==== Sys2Proof/Decode.lean ====
section
/-! DEFINITION. decodeTableWord (no row of the table has bits), and the payload layout of the management link's requests
(section 10.3): the encoder and the decoder of R185's first two checks. -/

namespace Sys2Proof

/-- No row of spec/opcode_table.json gives bits, so no word spells a command. -/
def decodeTableWord (_nbits _w : Nat) : Option Instr := none

/-- `n` bytes of `v`, least significant first (section 10.3). -/
def leBytes : Nat → Nat → List Byte
  | 0, _ => []
  | n + 1, v => BitVec.ofNat 8 v :: leBytes n (v / 256)

/-- The number that bytes sent least significant first stand for (section 10.3). -/
def ofLe : List Byte → Nat
  | [] => 0
  | b :: bs => b.toNat + 256 * ofLe bs

/-- Two bytes of a frame as one value, least significant first. -/
def le16 (lo hi : Byte) : BitVec 16 := BitVec.ofNat 16 (ofLe [lo, hi])

/-- The request code, byte 0 of the payload (section 10.3). -/
def BmcRequest.code : BmcRequest → Byte
  | .id _ => 0x01
  | .slotGet => 0x02
  | .slotSet _ => 0x03
  | .fence => 0x04
  | .recover _ => 0x05
  | .quar => 0x06
  | .pwrOn => 0x07
  | .pwrOff => 0x08
  | .winSet _ => 0x09
  | .denySet _ => 0x0A
  | .budgetSet _ => 0x0B
  | .scoreSet _ => 0x0C
  | .imgRead _ => 0x0D
  | .imgPut _ _ _ => 0x0E
  | .imgDrop => 0x0F
  | .filterSet _ => 0x10
  | .pinMode _ => 0x11
  | .pinLoad _ _ _ _ => 0x12
  | .pinSample => 0x13
  | .railRead => 0x14
  | .reportTake => 0x15
  | .partReset => 0x16

/-- The 28 bytes of a policy record (section 10.3). -/
def RawPolicy.bytes (p : RawPolicy) : List Byte :=
  [p.policy, p.lapse] ++ leBytes 2 p.decisionTime.toNat ++ [p.firstKind, p.maxAttempts, p.quota]
    ++ leBytes 2 p.slotTimeout.toNat ++ leBytes 2 p.drain.toNat ++ [p.fill, p.linkGrace]
    ++ leBytes 2 p.resetPulse.toNat ++ leBytes 2 p.minOff.toNat ++ leBytes 2 p.dischargeTimeout.toNat
    ++ leBytes 2 p.ramp.toNat ++ leBytes 2 p.training.toNat ++ leBytes 2 p.currentLimit.toNat
    ++ [p.demand, p.calertEnable, p.autoPower]

/-- The pairs of WIN.SET and DENY.SET, five bytes a page (section 10.3). -/
def pageBytes : List (BitVec 40 × BitVec 40) → List Byte
  | [] => []
  | (base, limit) :: rest => leBytes 5 base.toNat ++ leBytes 5 limit.toNat ++ pageBytes rest

/-- The pairs of FILTER.SET, two bytes a bound (section 10.3). -/
def boundBytes : List (BitVec 16 × BitVec 16) → List Byte
  | [] => []
  | (base, limit) :: rest => leBytes 2 base.toNat ++ leBytes 2 limit.toNat ++ boundBytes rest

/-- The fields after byte 1 (section 10.3). -/
def BmcRequest.fieldBytes : BmcRequest → List Byte
  | .id none => []
  | .id (some h) => [h]
  | .slotSet p => p.bytes
  | .recover k => [k]
  | .winSet ps => BitVec.ofNat 8 ps.length :: pageBytes ps
  | .denySet ps => BitVec.ofNat 8 ps.length :: pageBytes ps
  | .budgetSet b => [b]
  | .scoreSet p =>
    [p.timeout, p.stray, p.malformed, p.errant, p.linkDown, p.warn, p.fence] ++ leBytes 2 p.decayEpoch.toNat
  | .imgRead x => [x]
  | .imgPut o v m => leBytes 2 o.toNat ++ leBytes 4 v.toNat ++ [m]
  | .filterSet rs => BitVec.ofNat 8 rs.length :: boundBytes rs
  | .pinMode m => [m]
  | .pinLoad a b c d => [a, b, c, d]
  | .slotGet | .fence | .quar | .pwrOn | .pwrOff | .imgDrop | .pinSample | .railRead | .reportTake | .partReset => []

/-- A request's payload: kind byte, slot byte, fields (section 10.3). -/
def encodeRequest (sb : Byte) (r : BmcRequest) : List Byte := r.code :: sb :: r.fieldBytes

/-- What R185's first two checks make of a payload. -/
inductive Parsed where
  | unknown
  | badLength
  | request (sb : Byte) (r : BmcRequest)
  deriving DecidableEq, Repr

/-- The policy record of a SLOT.SET's 28 bytes (section 10.3). -/
def parsePolicy : List Byte → Option RawPolicy
  | [b0, b1, b2, b3, b4, b5, b6, b7, b8, b9, b10, b11, b12, b13, b14, b15, b16, b17, b18, b19, b20, b21, b22, b23,
      b24, b25, b26, b27] =>
    some
      { policy := b0, lapse := b1, decisionTime := le16 b2 b3, firstKind := b4, maxAttempts := b5, quota := b6
        slotTimeout := le16 b7 b8, drain := le16 b9 b10, fill := b11, linkGrace := b12, resetPulse := le16 b13 b14
        minOff := le16 b15 b16, dischargeTimeout := le16 b17 b18, ramp := le16 b19 b20, training := le16 b21 b22
        currentLimit := le16 b23 b24, demand := b25, calertEnable := b26, autoPower := b27 }
  | _ => none

/-- Pairs of five-byte pages; none if bytes are left over. -/
def parsePages : List Byte → Option (List (BitVec 40 × BitVec 40))
  | [] => some []
  | a0 :: a1 :: a2 :: a3 :: a4 :: b0 :: b1 :: b2 :: b3 :: b4 :: rest =>
    (parsePages rest).map fun ps =>
      (BitVec.ofNat 40 (ofLe [a0, a1, a2, a3, a4]), BitVec.ofNat 40 (ofLe [b0, b1, b2, b3, b4])) :: ps
  | _ => none

/-- Pairs of two-byte bounds; none if bytes are left over. -/
def parseBounds : List Byte → Option (List (BitVec 16 × BitVec 16))
  | [] => some []
  | a0 :: a1 :: b0 :: b1 :: rest => (parseBounds rest).map fun rs => (le16 a0 a1, le16 b0 b1) :: rs
  | _ => none

/-- R185 check 2: the fields after the slot byte, when the payload length is one that section 10.3 allows for the kind. The count
byte of WIN.SET, DENY.SET and FILTER.SET is read first, and the length allowed is the one it gives. -/
def parseFields (code : Byte) (f : List Byte) : Option BmcRequest :=
  match code.toNat, f with
  | 0x01, [] => some (.id none)
  | 0x01, [h] => some (.id (some h))
  | 0x02, [] => some .slotGet
  | 0x03, f => (parsePolicy f).map .slotSet
  | 0x04, [] => some .fence
  | 0x05, [k] => some (.recover k)
  | 0x06, [] => some .quar
  | 0x07, [] => some .pwrOn
  | 0x08, [] => some .pwrOff
  | 0x09, n :: f => if f.length = 10 * n.toNat then (parsePages f).map .winSet else none
  | 0x0A, n :: f => if f.length = 10 * n.toNat then (parsePages f).map .denySet else none
  | 0x0B, [b] => some (.budgetSet b)
  | 0x0C, [a, b, c, d, e, w, x, lo, hi] => some (.scoreSet ⟨a, b, c, d, e, w, x, le16 lo hi⟩)
  | 0x0D, [x] => some (.imgRead x)
  | 0x0E, [o0, o1, v0, v1, v2, v3, m] => some (.imgPut (le16 o0 o1) (BitVec.ofNat 32 (ofLe [v0, v1, v2, v3])) m)
  | 0x0F, [] => some .imgDrop
  | 0x10, n :: f => if f.length = 4 * n.toNat then (parseBounds f).map .filterSet else none
  | 0x11, [m] => some (.pinMode m)
  | 0x12, [a, b, c, d] => some (.pinLoad a b c d)
  | 0x13, [] => some .pinSample
  | 0x14, [] => some .railRead
  | 0x15, [] => some .reportTake
  | 0x16, [] => some .partReset
  | _, _ => none

/-- R185, checks 1 and 2: the kind byte is a request code, then the length is one the kind allows. -/
def parseRequest : List Byte → Parsed
  | [] => .badLength
  | code :: rest =>
    if code.toNat = 0 ∨ 0x16 < code.toNat then .unknown
    else match rest with
      | [] => .badLength
      | sb :: f =>
        match parseFields code f with
        | some r => .request sb r
        | none => .badLength

end Sys2Proof
end

