-- ==== Sys2Proof/Config.lean ====
section
/-! DEFINITION. What is fixed for the part (capacities and fixed intervals), and the free values the spec leaves open. -/

namespace Sys2Proof.Config

/-- The eight slots in ascending order (00_scope). -/
def slotIds : List SlotId := [0, 1, 2, 3, 4, 5, 6, 7]

/-- Entries of the pending pool (R19). -/
def poolSize : Nat := 192

/-- Entries of one restore image (R114). -/
def imageCap : Nat := 48

/-- Tags of one outbound set (R72). -/
def outboundCap : Nat := 32

/-- Records of the report queue (R196). -/
def reportCap : Nat := 32

/-- Where the slot channel's two counters stop (R4). -/
def counterMax : Nat := 4294967295

/-- Where the link's error counts stop (R181). -/
def linkCountMax : Nat := 65535

/-- The restore timer's fixed interval, 1,000 ms (R103). -/
def restoreMicros : Nat := 1000000

/-- The re-send timer's interval, 1 ms (R127). -/
def resendMicros : Nat := 1000

/-- The presence debounce interval, 20 ms (R171). -/
def debounceMicros : Nat := 20000

/-- One conversion (R163). -/
def conversionMicros : Nat := 25

/-- Half a blink period (R170). -/
def blinkMicros : Nat := 500000

/-- The gap timer's interval, 2 ms (R180). -/
def gapMicros : Nat := 2000

/-- Line time is counted in units of 1/576 microsecond, so that a bit time of either rate is a whole number (DESIGN CHOICE, log 19). -/
def lineUnits : Nat := 576

/-- One bit time in line units: 10^6 x 576 / rate (R179). -/
def bitUnits (fast : Bool) : Nat := if fast then 625 else 5000

/-- FREE VALUE: which of several events of one instant is taken first (R195, R196; log 3). -/
opaque pick : Nat → Nat

/-- FREE VALUE: the levels the board holds CLKEN, CRST and ATTN at in FLOAT, one for each look at a line (R178; log 5). -/
opaque boardLine : Nat → Bool

/-- FREE VALUE: numerator of the quantity on a rail channel as a conversion the part itself ends sees it (R164; log 4). -/
opaque railNum : Nat → Int

/-- FREE VALUE: denominator, less one, of that quantity (R164; log 4). -/
opaque railDen : Nat → Nat

end Sys2Proof.Config
end

