-- ==== Sys2Proof/Machine/Types.lean ====
section
/-! DEFINITION. The data the blocks of the LB-2608 hold: enumerations, records and the per-slot state, block by block. -/

namespace Sys2Proof.Machine

/-- The thirteen slot states (section 5.10). -/
inductive SlotState where
  | empty | off | online | suspect | fencing | isolated | quarantined
  | discharging | powerWait | ramping | resetting | training | restoring
  deriving DecidableEq, Repr

/-- The reasons shared by SLOT.GET and reports (section 10.3). -/
inductive Reason where
  | score | command | overcurrent | removed | link | calert | upstream | inserted | ordered | lapse | exhausted
  | dischargeTimeout | budget | rail | trainingTimeout | restoreFail | restoreTimeout
  | timeout | stray | malformed | errant | linkDown | decay
  | denied | outside | ramp | limit | tagCollision | cardTag | hostStray
  deriving DecidableEq, Repr

/-- The kinds of report (R197). -/
inductive ReportKind where
  | state | hang | errant | overcurrent | attempt | restored | presence | protocol
  deriving DecidableEq, Repr

/-- The statuses of a reply (section 10.3). -/
inductive ReplyStatus where
  | ok | clamped | state | range | full | unknown | length | slot
  deriving DecidableEq, Repr

/-- A timer of the part: stopped, or running to a deadline (R199). Also used for a deadline that may be absent. -/
abbrev Timer := Option Micros

/-- The decision timer (R60). -/
inductive DecisionTimer where
  | stopped | running (deadline : Micros) | suspended
  deriving DecidableEq, Repr

/-- The reset pulse timer (R86). -/
inductive PulseTimer where
  | stopped | running (deadline : Micros) | awaitingRelease
  deriving DecidableEq, Repr

/-- The policy for ISOLATED (R79). -/
inductive PolicyChoice where
  | auto | ask | hold
  deriving DecidableEq, Repr

/-- The lapse action (R79). -/
inductive LapseAction where
  | recover | quarantine
  deriving DecidableEq, Repr

/-- The kind of an attempt (R86). -/
inductive ResetKind where
  | warm | cold
  deriving DecidableEq, Repr

/-- How a recovery began (R86). -/
inductive Origin where
  | recovery | upstream | bringUp
  deriving DecidableEq, Repr

/-- Where DISCHARGING leads (R86). -/
inductive Target where
  | bringUp | off
  deriving DecidableEq, Repr

/-- Where a fenced slot goes after its drain (R54). -/
inductive Disposition where
  | recover | off
  deriving DecidableEq, Repr

/-- The fill mode (R34). -/
inductive FillMode where
  | ones | abort
  deriving DecidableEq, Repr

/-- The pin modes (R169). -/
inductive PinMode where
  | live | hold | float
  deriving DecidableEq, Repr

/-- The levels of ATTN (R169). -/
inductive Attn where
  | off | on | blink
  deriving DecidableEq, Repr

/-- Levels for the four outputs (R169). `crst` is true when CRST is asserted. -/
structure Drive where
  pwren : Bool
  clken : Bool
  crst : Bool
  attn : Attn
  deriving DecidableEq, Repr

/-- A slot's policy record (section 10.3; R9, R14, R22, R34, R61, R79, R87, R139, R162, R173). Times are in the unit of their field. -/
structure Policy where
  policy : PolicyChoice
  lapse : LapseAction
  decisionTime : Nat
  firstKind : ResetKind
  maxAttempts : Nat
  quota : Nat
  slotTimeout : Nat
  drain : Nat
  fill : FillMode
  linkGrace : Nat
  resetPulse : Nat
  minOff : Nat
  dischargeTimeout : Nat
  ramp : Nat
  training : Nat
  currentLimit : Nat
  demand : Nat
  calertEnable : Bool
  autoPower : Bool
  deriving DecidableEq, Repr

/-- The kind of a pending entry with the fields only some kinds have (R20). -/
inductive EntryKind where
  | memRead
  | ioRead
  | ioWrite
  | cfgRead (offset : Offset)
  | cfgWrite (offset : Offset) (value : Dword) (mask : ByteMask)
  deriving DecidableEq, Repr

/-- A pending entry (R20). -/
structure Entry where
  tag : Tag
  kind : EntryKind
  owed : Nat
  delivered : Nat
  arrival : Micros
  deadline : Micros
  deriving DecidableEq, Repr

/-- The request in the downstream hold (R4, R9). -/
structure Held where
  req : Request
  arrival : Micros
  deadline : Micros
  deriving DecidableEq, Repr

/-- What a channel sends on the host side: a forwarded card request, or a completion. -/
inductive HostOut where
  | request (r : Request)
  | completion (c : Completion)
  deriving DecidableEq, Repr

/-- What a channel sends on the card side: a host request or a replay write under its requester identity (R1), or a completion. -/
inductive CardOut where
  | request (who : Requester) (r : Request)
  | completion (c : Completion)
  deriving DecidableEq, Repr

/-- A slot channel (R4), the link's own buffering on each side (R8), and what the channel has sent, oldest first (log 9). -/
structure Channel where
  gateOpen : Bool
  hold : Option Held
  cardHold : Option Request
  identity : Option Dword
  linkUp : Bool
  inReset : Bool
  dropped : Nat
  absorbed : Nat
  hostWaiting : List Request
  cardWaiting : List Request
  hostOut : List HostOut
  cardOut : List CardOut
  deriving DecidableEq, Repr

/-- A tag of the outbound set with its ghost marker (R72). -/
structure OutTag where
  tag : Tag
  ghost : Bool
  deriving DecidableEq, Repr

/-- The outbound set with its ghost deadline (R72). -/
structure Outbound where
  tags : List OutTag
  deadline : Timer
  deriving DecidableEq, Repr

/-- The slot controller: state and score (R44), fence state (R60), recovery record (R86), last reported state (R197), and the
policy read at ISOLATED entry (R78). -/
structure Controller where
  state : SlotState
  reason : Option Reason
  lastReported : SlotState
  score : Nat
  disposition : Option Disposition
  powerCut : Bool
  powerOff : Option Micros
  drainTimer : Timer
  decisionTimer : DecisionTimer
  graceTimer : Timer
  isoPolicy : Option PolicyChoice
  attempts : Nat
  resetKind : Option ResetKind
  origin : Option Origin
  target : Option Target
  present : Bool
  minOffTimer : Timer
  minOffElapsed : Bool
  dischargeTimer : Timer
  rampTimer : Timer
  pulseTimer : PulseTimer
  trainingTimer : Timer
  restoreTimer : Timer
  deriving DecidableEq, Repr

/-- An entry of a restore image (R114). -/
structure ImgEntry where
  offset : Offset
  value : Dword
  mask : ByteMask
  deriving DecidableEq, Repr

/-- The outstanding replay write (R125). -/
structure Outstanding where
  tag : Tag
  deadline : Micros
  deriving DecidableEq, Repr

/-- The restore image and its replay state (R114, R124). -/
structure ImageStore where
  entries : List ImgEntry
  incomplete : Bool
  sequence : List ImgEntry
  cursor : Option Nat
  outstanding : Option Outstanding
  resendTimer : Timer
  replayed : Nat
  nextTag : Tag
  deriving DecidableEq, Repr

/-- The sideband pin unit (R169, R171, R201), the raw PRSNT level, and the level the board gives PWREN in FLOAT (R165). -/
structure PinUnit where
  mode : PinMode
  held : Drive
  prsnt : Bool
  delivered : Bool
  debounce : Timer
  startUp : Bool
  calert : Bool
  blinkSince : Option Micros
  blinkOn : Bool
  blinkTimer : Timer
  boardPwren : Bool
  deriving DecidableEq, Repr

/-- An inclusive range of page numbers, or of offsets (R116, R149). -/
structure Span where
  base : Nat
  limit : Nat
  deriving DecidableEq, Repr

/-- The permit checker's per-slot state (R149). -/
structure Permit where
  windows : Vector (Option Span) 4
  errantReported : Bool
  deriving DecidableEq, Repr

/-- A kept result (R162): its code, its qualifying mark, and whether its conversion began after the power-off instant (R93, log 16). -/
structure RailResult where
  code : Nat
  mark : Bool
  afterOff : Bool
  deriving DecidableEq, Repr

/-- The three channel results of a slot and its run count (R162). -/
structure Rails where
  v12 : Option RailResult
  v33 : Option RailResult
  current : Option RailResult
  runCount : Nat
  deriving DecidableEq, Repr

/-- All the state that belongs to one slot. -/
structure Slot where
  chan : Channel
  entries : List Entry
  outbound : Outbound
  ctl : Controller
  store : ImageStore
  pins : PinUnit
  permit : Permit
  rails : Rails
  policy : Policy
  deriving DecidableEq, Repr

/-- The scorer's parameters and its decay epoch timer (R45, R48). -/
structure Scorer where
  timeout : Nat
  stray : Nat
  malformed : Nat
  errant : Nat
  linkDown : Nat
  warn : Nat
  fence : Nat
  decayEpoch : Nat
  decayTimer : Timer
  deriving DecidableEq, Repr

/-- A place of the inrush queue, or a member of the granted set (R137). -/
structure Place where
  slot : SlotId
  demand : Nat
  deriving DecidableEq, Repr

/-- The inrush arbiter (R137). -/
structure Arbiter where
  budget : Nat
  queue : List Place
  granted : List Place
  deriving DecidableEq, Repr

/-- The rail monitor's scan (R162, R163, R165). -/
structure Monitor where
  channel : Fin 24
  convEnd : Timer
  discard : Bool
  afterOff : Bool
  deriving DecidableEq, Repr

/-- A report record (R197). -/
structure Report where
  kind : ReportKind
  slot : SlotId
  stamp : BitVec 32
  reason : Option Reason
  states : Option (SlotState × SlotState)
  value : Option Nat
  partialRestore : Bool
  lost : Nat
  deriving DecidableEq, Repr

/-- The report queue (R196). -/
structure ReportQueue where
  records : List Report
  lost : Nat
  deriving DecidableEq, Repr

/-- The four assembly states (R180). -/
inductive Assembly where
  | hunt | length | payload | check
  deriving DecidableEq, Repr

/-- The link error counts (R179). -/
structure LinkCounts where
  gap : Nat
  framing : Nat
  length : Nat
  check : Nat
  overrun : Nat
  deriving DecidableEq, Repr

/-- The request in process with its reply (R179, R184): the reply's payload, whether a control reset follows it (R194), whether its
first character has been sent, and the line times of its first character and of the end of its last. -/
structure InProcess where
  reply : List Byte
  partReset : Bool
  started : Bool
  startAt : Nat
  endAt : Nat
  deriving DecidableEq, Repr

/-- The waiting request (R182): its payload and the line time at which its check byte ended. -/
structure Waiting where
  payload : List Byte
  frameEnd : Nat
  deriving DecidableEq, Repr

/-- A frame sent on MTX; `whole` is false when a control reset cut it off (R179). -/
structure SentFrame where
  bytes : List Byte
  whole : Bool
  deriving DecidableEq, Repr

/-- The management link (R179). -/
structure Link where
  fast : Bool
  phase : Assembly
  frameLen : Nat
  payload : List Byte
  gapTimer : Timer
  inProcess : Option InProcess
  waiting : Option Waiting
  overrun : Bool
  holdOff : Nat
  counts : LinkCounts
  sent : List SentFrame
  deriving DecidableEq, Repr

end Sys2Proof.Machine
end

