-- ==== Sys2Proof/Machine/Defaults.lean ====
section
/-! DEFINITION. The power-on values of each block's state. -/

namespace Sys2Proof.Machine

/-- The policy record's defaults (R9, R14, R22, R34, R61, R79, R87, R139, R162, R173); auto-power is the AUTOON strap's level. -/
def Policy.default (autoon : Bool) : Policy :=
  { policy := .auto, lapse := .recover, decisionTime := 5000, firstKind := .warm, maxAttempts := 3, quota := 24
    slotTimeout := 10000, drain := 1000, fill := .ones, linkGrace := 5, resetPulse := 100, minOff := 100
    dischargeTimeout := 2000, ramp := 100, training := 1000, currentLimit := 6250, demand := 50
    calertEnable := true, autoPower := autoon }

/-- R4's power-on column. -/
def Channel.powerOn : Channel :=
  { gateOpen := false, hold := none, cardHold := none, identity := none, linkUp := false, inReset := false
    dropped := 0, absorbed := 0, hostWaiting := [], cardWaiting := [], hostOut := [], cardOut := [] }

/-- The power-on columns of R44, R60 and R86; reason none (section 10.3), last reported state EMPTY (R197). -/
def Controller.powerOn : Controller :=
  { state := .empty, reason := none, lastReported := .empty, score := 0, disposition := none, powerCut := false
    powerOff := none, drainTimer := none, decisionTimer := .stopped, graceTimer := none, isoPolicy := none
    attempts := 0, resetKind := none, origin := none, target := none, present := false, minOffTimer := none
    minOffElapsed := true, dischargeTimer := none, rampTimer := none, pulseTimer := .stopped
    trainingTimer := none, restoreTimer := none }

/-- R114's power-on column. -/
def ImageStore.powerOn : ImageStore :=
  { entries := [], incomplete := false, sequence := [], cursor := none, outstanding := none, resendTimer := none
    replayed := 0, nextTag := 0 }

/-- The held image's power-on levels (R169). -/
def Drive.heldPowerOn : Drive := { pwren := false, clken := false, crst := true, attn := .off }

/-- R169's power-on column, with the input pins at the levels given. -/
def PinUnit.powerOn (prsnt calert boardPwren : Bool) : PinUnit :=
  { mode := .live, held := Drive.heldPowerOn, prsnt := prsnt, delivered := false, debounce := none, startUp := false
    calert := calert, blinkSince := none, blinkOn := false, blinkTimer := none, boardPwren := boardPwren }

/-- A slot at its power-on values (R201), with its input pins at the levels given. -/
def Slot.powerOn (prsnt calert boardPwren : Bool) : Slot :=
  { chan := Channel.powerOn, entries := [], outbound := { tags := [], deadline := none }, ctl := Controller.powerOn
    store := ImageStore.powerOn, pins := PinUnit.powerOn prsnt calert boardPwren
    permit := { windows := Vector.replicate 4 none, errantReported := false }
    rails := { v12 := none, v33 := none, current := none, runCount := 0 }, policy := Policy.default false }

/-- The scorer's defaults (R45); the decay timer is not yet running. -/
def Scorer.powerOn : Scorer :=
  { timeout := 32, stray := 8, malformed := 16, errant := 16, linkDown := 64, warn := 64, fence := 128
    decayEpoch := 100, decayTimer := none }

/-- R137's power-on column. -/
def Arbiter.powerOn : Arbiter := { budget := 100, queue := [], granted := [] }

/-- R162's power-on column; no conversion is in progress yet. -/
def Monitor.powerOn : Monitor := { channel := 0, convEnd := none, discard := false, afterOff := true }

/-- R196's power-on column. -/
def ReportQueue.powerOn : ReportQueue := { records := [], lost := 0 }

/-- Error counts of 0 (R179). -/
def LinkCounts.zero : LinkCounts := { gap := 0, framing := 0, length := 0, check := 0, overrun := 0 }

/-- R179's power-on column; the bit rate is the RATE strap's. -/
def Link.powerOn (rate : Bool) : Link :=
  { fast := rate, phase := .hunt, frameLen := 0, payload := [], gapTimer := none, inProcess := none, waiting := none
    overrun := false, holdOff := 0, counts := LinkCounts.zero, sent := [] }

/-- The decay timer's and the scan's first deadlines, from timebase 0 (R48, R163). -/
def Scorer.atStart : Scorer := { Scorer.powerOn with decayTimer := some 100000#32 }

/-- The scan begins with channel 0 at timebase 0 (R163). -/
def Monitor.atStart : Monitor := { Monitor.powerOn with convEnd := some 25#32 }

end Sys2Proof.Machine
end

