-- ==== Sys2Proof/Machine/State.lean ====
section
/-! DEFINITION. The state of the whole part, the reasons a step can stop, and the state after power-on reset. -/

namespace Sys2Proof.Machine

/-- The part. `elapsed` is the number of microseconds since the end of power-on reset, from which the 32-bit timebase (R199) and the
32-bit millisecond count (R200) are read. `freeCount` is the model's own counter of free values. `pending` is the queue of commands. -/
structure State where
  slots : Vector Slot 8
  poolWait : List SlotId
  scorer : Scorer
  filter : List Span
  deny : Vector (Option Span) 2
  arbiter : Arbiter
  monitor : Monitor
  reports : ReportQueue
  link : Link
  elapsed : Nat
  porHeld : Bool
  cresetHeld : Bool
  freeCount : Nat
  pending : List Instr
  deriving DecidableEq, Repr

/-- Why a step can stop with a fault. -/
inductive Fault where
  /-- Raised by the meaning of a command whose operands lie outside the ranges R1, R2 or section 10.3 give: the link layer delivers no
  such request (R1) and no frame carries such a payload (R180). Safe: the part never meets it. -/
  | illFormedCommand
  deriving DecidableEq, Repr

/-- Why a step can be refused. -/
inductive Refusal where
  /-- Raised only by a refused arm of exec; no arm of this model is refused. Safe. -/
  | notModelled (mnemonic : String)
  deriving DecidableEq, Repr

/-- The part at the end of a power-on reset (R201) taken with RATE and AUTOON low, no PRSNT asserted, every CALERT released and the
board's PWREN levels off (DESIGN CHOICE for these input pins, log 6; unsafe). -/
def State.reset : State :=
  { slots := Vector.replicate 8 (Slot.powerOn false false false), poolWait := [], scorer := Scorer.atStart, filter := []
    deny := Vector.replicate 2 none, arbiter := Arbiter.powerOn, monitor := Monitor.atStart
    reports := ReportQueue.powerOn, link := Link.powerOn false, elapsed := 0, porHeld := false, cresetHeld := false
    freeCount := 0, pending := [] }

end Sys2Proof.Machine
end

