-- ==== Sys2Proof/Machine/Ops.lean ====
section
/-! DEFINITION. The shared operations: reading and changing a slot, time, reports, outputs, the sideband drive and what a PWREN
change does. -/

namespace Sys2Proof

/-- The posted kinds are memory write and message (R1). -/
def Request.posted (r : Request) : Bool :=
  match r.kind with
  | .memWrite _ _ => true
  | .message => true
  | _ => false

/-- A final completion with no data. -/
def Completion.bare (tag : Tag) (status : CplStatus) : Completion :=
  { tag := tag, status := status, data := [], final := true }

end Sys2Proof

namespace Sys2Proof.Machine

/-! ### Slots and time -/

/-- The state of slot `i`. -/
def State.slot (s : State) (i : SlotId) : Slot := s.slots[i]

/-- The part with slot `i` replaced. -/
def State.setSlot (s : State) (i : SlotId) (x : Slot) : State := { s with slots := s.slots.set i x }

/-- The part with slot `i` changed by `f`. -/
def State.modSlot (s : State) (i : SlotId) (f : Slot → Slot) : State := s.setSlot i (f (s.slot i))

/-- The part with every slot changed by `f`. -/
def State.mapSlots (s : State) (f : Slot → Slot) : State := { s with slots := s.slots.map f }

/-- The timebase: the microseconds since the end of power-on reset, modulo 2^32 (R199). -/
def State.now (s : State) : Micros := BitVec.ofNat 32 s.elapsed

/-- The millisecond count (R200). An event taken at a whole millisecond is stamped with the count after its step, which is the model's choice
(log 34). -/
def State.stamp (s : State) : BitVec 32 := BitVec.ofNat 32 (s.elapsed / 1000)

/-- A deadline: the present count plus an interval in microseconds, modulo 2^32 (R199). -/
def State.after (s : State) (micros : Nat) : Micros := s.now + BitVec.ofNat 32 micros

/-- The same with an interval in milliseconds (R199). -/
def State.afterMs (s : State) (ms : Nat) : Micros := s.after (1000 * ms)

/-- The time of the management line in units of 1/576 microsecond (log 19). -/
def State.lineNow (s : State) : Nat := s.elapsed * Config.lineUnits

/-- R201: while POR# is held the part is held at its power-on values, and no event but those of its input pins acts (log 21). -/
def State.running (s : State) (f : State → State) : State := if s.porHeld then s else f s

/-- R199: a timer's expiry is taken when the count equals its deadline; a timer that is stopped has none (log 1). -/
def State.due (s : State) (t : Timer) : Bool := t == some s.now

/-- An event acts only where its condition holds; otherwise it is no event of the part (log 1). -/
def State.when (s : State) (c : Bool) (f : State → State) : State := if c then f s else s

/-! ### Slot states and kinds -/

/-- The gate is open in ONLINE and SUSPECT (R5). -/
def SlotState.isOpen : SlotState → Bool
  | .online => true
  | .suspect => true
  | _ => false

/-- The slot's score moves and fences are taken only in ONLINE and SUSPECT (R52, R54). -/
def Slot.inService (sl : Slot) : Bool := sl.ctl.state.isOpen

/-- The kinds that read (R20). -/
def EntryKind.isRead : EntryKind → Bool
  | .memRead => true
  | .ioRead => true
  | .cfgRead _ => true
  | _ => false

/-! ### Reports -/

/-- ALERT# is asserted while the report queue holds at least one record (R198). -/
def State.alert (s : State) : Bool := !s.reports.records.isEmpty

/-- R196: a record enters at the tail with the lost count, or is lost to a full queue. R202: while CRESET# (or POR#) is held a
report offered is discarded without adding to the lost count. -/
def State.offerReport (s : State) (r : Report) : State :=
  if s.porHeld || s.cresetHeld then s
  else if s.reports.records.length < Config.reportCap then
    { s with reports := { records := s.reports.records ++ [{ r with lost := s.reports.lost }], lost := 0 } }
  else { s with reports := { s.reports with lost := min (s.reports.lost + 1) 255 } }

/-- Offers a record that is no STATE record (R197), stamped now (R200). -/
def State.report (s : State) (kind : ReportKind) (i : SlotId) (reason : Option Reason) (value : Option Nat) : State :=
  s.offerReport
    { kind := kind, slot := i, stamp := s.stamp, reason := reason, states := none, value := value
      partialRestore := false, lost := 0 }

/-- Offers the RESTORED record of R104. -/
def State.reportRestored (s : State) (i : SlotId) (replayed : Nat) (incomplete : Bool) : State :=
  s.offerReport
    { kind := .restored, slot := i, stamp := s.stamp, reason := none, states := none, value := some replayed
      partialRestore := incomplete, lost := 0 }

/-- Offers a STATE record: old state the last reported state, new state the present one, which becomes the last reported state
whether the record enters or is lost (R197). -/
def State.reportState (s : State) (i : SlotId) (reason : Option Reason) (value : Option Nat) : State :=
  let sl := s.slot i
  (s.modSlot i fun sl => { sl with ctl.lastReported := sl.ctl.state }).offerReport
    { kind := .state, slot := i, stamp := s.stamp, reason := reason, states := some (sl.ctl.lastReported, sl.ctl.state)
      value := value, partialRestore := false, lost := 0 }

/-! ### What the channel sends -/

/-- Sends on the host side of slot `i`. -/
def State.toHost (s : State) (i : SlotId) (o : HostOut) : State :=
  s.modSlot i fun sl => { sl with chan.hostOut := sl.chan.hostOut ++ [o] }

/-- Sends on the card side of slot `i`. -/
def State.toCard (s : State) (i : SlotId) (o : CardOut) : State :=
  s.modSlot i fun sl => { sl with chan.cardOut := sl.chan.cardOut ++ [o] }

/-- The answer made by fill mode: ONES gives SUCCESS with `dwords` all-ones dwords (0 for a write), ABORT gives ABORT (R10, R34, R68). -/
def FillMode.answer (m : FillMode) (tag : Tag) (dwords : Nat) : Completion :=
  match m with
  | .ones => { tag := tag, status := .success, data := List.replicate dwords Dword.ones, final := true }
  | .abort => Completion.bare tag .abort

/-- R4: the counter of absorbed requests, saturating. -/
def State.countAbsorbed (s : State) (i : SlotId) : State :=
  s.modSlot i fun sl => { sl with chan.absorbed := min (sl.chan.absorbed + 1) Config.counterMax }

/-- R4: the counter of dropped writes, saturating. -/
def State.countDropped (s : State) (i : SlotId) : State :=
  s.modSlot i fun sl => { sl with chan.dropped := min (sl.chan.dropped + 1) Config.counterMax }

/-! ### The sideband outputs -/

/-- The LIVE drive of each state (section 5.10), with the power-cut drive of R60 in FENCING and ISOLATED. -/
def SlotState.liveDrive (st : SlotState) (powerCut : Bool) : Drive :=
  match st with
  | .empty => ⟨false, false, true, .off⟩
  | .off => ⟨false, false, true, .off⟩
  | .online => ⟨true, true, false, .off⟩
  | .suspect => ⟨true, true, false, .blink⟩
  | .fencing => if powerCut then ⟨false, false, true, .on⟩ else ⟨true, true, false, .on⟩
  | .isolated => if powerCut then ⟨false, false, true, .on⟩ else ⟨true, true, true, .on⟩
  | .quarantined => ⟨false, false, true, .blink⟩
  | .discharging => ⟨false, false, true, .on⟩
  | .powerWait => ⟨false, false, true, .on⟩
  | .ramping => ⟨true, false, true, .on⟩
  | .resetting => ⟨true, true, true, .on⟩
  | .training => ⟨true, true, false, .on⟩
  | .restoring => ⟨true, true, false, .on⟩

/-- R170: what the part drives on the four outputs; none in FLOAT. -/
def Slot.drive (sl : Slot) : Option Drive :=
  match sl.pins.mode with
  | .live => some (sl.ctl.state.liveDrive sl.ctl.powerCut)
  | .hold => some sl.pins.held
  | .float => none

/-- R165: the level on the slot's PWREN line, the part's drive in LIVE and HOLD and the board's level in FLOAT. -/
def Slot.pwren (sl : Slot) : Bool :=
  match sl.drive with
  | some d => d.pwren
  | none => sl.pins.boardPwren

/-- R170: ATTN is commanded to blink. -/
def Slot.blinks (sl : Slot) : Bool :=
  match sl.drive with
  | some d => d.attn == .blink
  | none => false

/-- The slot a monitor channel belongs to: channels 3s to 3s + 2 are slot s's (R162). -/
def Monitor.slot (m : Monitor) : SlotId := ⟨m.channel.val / 3, by omega⟩

/-- The results of a slot with their qualifying marks cleared (R165). -/
def Rails.clearMarks (r : Rails) : Rails :=
  { r with
    v12 := r.v12.map fun x => { x with mark := false }
    v33 := r.v33.map fun x => { x with mark := false }
    current := r.current.map fun x => { x with mark := false } }

/-- The results of a slot as converted before a new power-off instant (R93, log 16). -/
def Rails.beforeOff (r : Rails) : Rails :=
  { r with
    v12 := r.v12.map fun x => { x with afterOff := false }
    v33 := r.v33.map fun x => { x with afterOff := false }
    current := r.current.map fun x => { x with afterOff := false } }

/-- R60, R86: the power-off instant is set, the min-off timer starts anew and min-off elapsed becomes no. R93: no result converted so
far, nor the conversion in progress, counts as after it. -/
def State.setPowerOff (s : State) (i : SlotId) : State :=
  let s := s.modSlot i fun sl =>
    { sl with
      ctl.powerOff := some s.now
      ctl.minOffTimer := some (s.afterMs sl.policy.minOff)
      ctl.minOffElapsed := false
      rails := sl.rails.beforeOff }
  if s.monitor.slot = i then { s with monitor.afterOff := false } else s

/-- R165: a PWREN change discards the slot's conversion in progress, clears its marks and its run count. -/
def State.pwrenChanged (s : State) (i : SlotId) : State :=
  let s := s.modSlot i fun sl => { sl with rails := { sl.rails.clearMarks with runCount := 0 } }
  if s.monitor.slot = i then { s with monitor.discard := true } else s

/-- R170: when the commanded ATTN becomes blink the line goes on and alternates every 500 ms while it stays blink. -/
def State.followBlink (s : State) (i : SlotId) (before : Bool) : State :=
  if (s.slot i).blinks then
    if before then s
    else s.modSlot i fun sl =>
      { sl with
        pins.blinkSince := some s.now
        pins.blinkOn := true
        pins.blinkTimer := some (s.after Config.blinkMicros) }
  else s.modSlot i fun sl => { sl with pins.blinkOn := false, pins.blinkTimer := none }

/-- Changes slot `i` by `f`, a change that may move its outputs: the outputs follow at once, the rail monitor takes a PWREN change
(R165), a change to off sets the power-off instant (R60, R170), and a blink starts or ends (R170). -/
def State.drive (s : State) (i : SlotId) (f : Slot → Slot) : State :=
  let old := s.slot i
  let new := f old
  let s := s.setSlot i new
  let s := if old.pwren = new.pwren then s else s.pwrenChanged i
  let s := if old.pwren && !new.pwren then s.setPowerOff i else s
  s.followBlink i old.blinks

/-- The slot moved to a state: the gate follows R5, the timers of the state it leaves are stopped (R60, R86), the link grace timer
goes on only in ONLINE and SUSPECT (R15), and the discharge target and the policy of a stay in ISOLATED are absent (R86, R78). -/
def Slot.moveTo (sl : Slot) (st : SlotState) : Slot :=
  { sl with
    chan.gateOpen := st.isOpen
    ctl.state := st
    ctl.drainTimer := none
    ctl.decisionTimer := .stopped
    ctl.graceTimer := if st.isOpen then sl.ctl.graceTimer else none
    ctl.isoPolicy := none
    ctl.target := none
    ctl.dischargeTimer := none
    ctl.rampTimer := none
    ctl.pulseTimer := .stopped
    ctl.trainingTimer := none
    ctl.restoreTimer := none }

end Sys2Proof.Machine
end

