-- ==== Sys2Proof/Machine/Image.lean ====
section
/-! DEFINITION. The restore image: recording, serving and clearing (R114 to R123, R133). -/

namespace Sys2Proof.Machine

/-- The bytes a mask names, as a dword mask (R114: bit n stands for byte n). -/
def maskBits (m : ByteMask) : Dword :=
  (if m.getLsbD 0 then 0x000000FF#32 else 0) ||| (if m.getLsbD 1 then 0x0000FF00#32 else 0)
    ||| (if m.getLsbD 2 then 0x00FF0000#32 else 0) ||| (if m.getLsbD 3 then 0xFF000000#32 else 0)

/-- R118: the write's bytes replace the entry's, and the mask becomes the union. -/
def ImgEntry.merge (e : ImgEntry) (value : Dword) (mask : ByteMask) : ImgEntry :=
  { e with
    value := (e.value &&& ~~~(maskBits mask)) ||| (value &&& maskBits mask)
    mask := e.mask ||| mask }

/-- R121: the entry's value with each byte outside its mask read as 0xFF. -/
def ImgEntry.read (e : ImgEntry) : Dword := e.value ||| ~~~(maskBits e.mask)

/-- The image holds an entry for the offset. -/
def ImageStore.holds (st : ImageStore) (offset : Offset) : Bool := st.entries.any fun e => e.offset == offset

/-- R118 for the entry of that offset, in place. -/
def ImageStore.mergeAt (st : ImageStore) (offset : Offset) (value : Dword) (mask : ByteMask) : ImageStore :=
  { st with entries := st.entries.map fun e => if e.offset = offset then e.merge value mask else e }

/-- R119: a new entry at the tail, the bytes outside the mask held as 0x00. -/
def ImageStore.append (st : ImageStore) (offset : Offset) (value : Dword) (mask : ByteMask) : ImageStore :=
  { st with entries := st.entries ++ [{ offset := offset, value := value &&& maskBits mask, mask := mask }] }

/-- There is room for a new entry (R114). -/
def ImageStore.hasRoom (st : ImageStore) : Bool := st.entries.length < Config.imageCap

/-- R116: the offset lies in a range of the capture filter. -/
def inFilter (filter : List Span) (offset : Offset) : Bool :=
  filter.any fun r => r.base ≤ offset.toNat && offset.toNat ≤ r.limit

/-- R117 and R122: a configuration write reaches the image. Discarded at offset 0 and inside the filter, merged, appended, or left out
with the incomplete mark set; the flag is false in that last case. -/
def ImageStore.record (st : ImageStore) (filter : List Span) (offset : Offset) (value : Dword) (mask : ByteMask) :
    ImageStore × Bool :=
  if offset = 0 then (st, true)
  else if inFilter filter offset then (st, true)
  else if st.holds offset then (st.mergeAt offset value mask, true)
  else if st.hasRoom then (st.append offset value mask, true)
  else ({ st with incomplete := true }, false)

/-- R121, R69: the data dword of an absorbed configuration read. In EMPTY too an offset that the host wrote there is answered with the entry's
value, where R123 says 'Every configuration read is answered 0xFFFFFFFF' of an image it calls empty: that is the model's choice (log 36). -/
def Slot.configRead (sl : Slot) (offset : Offset) : Dword :=
  if offset = 0 then sl.chan.identity.getD Dword.ones
  else match sl.store.entries.find? fun e => e.offset == offset with
    | some e => e.read
    | none => Dword.ones

/-- R133: every entry removed and the incomplete mark cleared. The replay sequence of a running replay is left with nothing (R131). -/
def ImageStore.clear (st : ImageStore) : ImageStore :=
  { st with entries := [], incomplete := false, sequence := [] }

/-- R129, R130: the replay is over; cursor and outstanding write absent, re-send timer stopped. -/
def ImageStore.stopReplay (st : ImageStore) : ImageStore :=
  { st with sequence := [], cursor := none, outstanding := none, resendTimer := none }

/-- R114: entry to EMPTY; the next replay tag is kept. -/
def ImageStore.empty (st : ImageStore) : ImageStore :=
  { st.clear.stopReplay with replayed := 0 }

/-- R124: every entry whose offset is not 1 in image order, then the entry for offset 1. -/
def ImageStore.replayOrder (st : ImageStore) : List ImgEntry :=
  (st.entries.filter fun e => e.offset != 1) ++ (st.entries.filter fun e => e.offset == 1)

end Sys2Proof.Machine
end

