-- ==== Sys2Proof/Machine/Channel.lean ====
section
/-! DEFINITION. The host side of a slot channel: absorption (R67 to R70), admission (R23 to R26) and the downstream hold (R9 to R11). -/

namespace Sys2Proof

/-- The dwords a fill answer carries for a request: its whole length for a read, none for a write (R10, R68). -/
def TxKind.fillDwords : TxKind → Nat
  | .memRead _ len => len
  | .ioRead _ => 1
  | .cfgRead _ => 1
  | _ => 0

/-- R20: the kind of an entry and the dwords it is owed. Posted requests take no entry. -/
def TxKind.entryKind : TxKind → Machine.EntryKind × Nat
  | .memRead _ len => (.memRead, len)
  | .ioRead _ => (.ioRead, 1)
  | .ioWrite _ _ _ => (.ioWrite, 1)
  | .cfgRead offset => (.cfgRead offset, 1)
  | .cfgWrite offset mask data => (.cfgWrite offset data mask, 1)
  | .memWrite _ _ => (.memRead, 0)
  | .message => (.memRead, 0)

/-- The pending entry of a request (R20). -/
def Request.entry (r : Request) (arrival deadline : Micros) : Machine.Entry :=
  { tag := r.tag, kind := r.kind.entryKind.1, owed := r.kind.entryKind.2, delivered := 0
    arrival := arrival, deadline := deadline }

end Sys2Proof

namespace Sys2Proof.Machine

/-- The slot's list holds an entry with the tag (R23). -/
def Slot.pendingTag (sl : Slot) (tag : Tag) : Bool := sl.entries.any fun e => e.tag == tag

/-- R24, R70: a tag collision is answered ABORT and causes a PROTOCOL report. -/
def State.refuseTag (s : State) (i : SlotId) (tag : Tag) : State :=
  (s.toHost i (.completion (Completion.bare tag .abort))).report .protocol i (some .tagCollision) (some tag.toNat)

/-- R67: a host request is answered by fill mode or from the image, or discarded. In FENCING a tag still pending is refused (R70). -/
def State.absorb (s : State) (i : SlotId) (r : Request) : State :=
  let sl := s.slot i
  if sl.ctl.state = .fencing && !r.posted && sl.pendingTag r.tag then s.refuseTag i r.tag
  else match r.kind with
    | .memWrite _ _ => s.countDropped i
    | .message => s.countDropped i
    | .cfgRead offset =>
      (s.toHost i (.completion
        { tag := r.tag, status := .success, data := [sl.configRead offset], final := true })).countAbsorbed i
    | .cfgWrite offset mask data =>
      let (store, taken) := sl.store.record s.filter offset data mask
      ((s.modSlot i fun sl => { sl with store := store }).toHost i
        (.completion (Completion.bare r.tag (if taken then .success else .abort)))).countAbsorbed i
    | k => (s.toHost i (.completion (sl.policy.fill.answer r.tag (k.fillDwords)))).countAbsorbed i

/-- The free count: 192 less the entries of all eight lists (R19). -/
def State.poolFree (s : State) : Nat := Config.poolSize - (s.slots.toList.map fun sl => sl.entries.length).sum

/-- R25: the slot leaves the pool wait list. -/
def State.leavePoolWait (s : State) (i : SlotId) : State := { s with poolWait := s.poolWait.filter fun j => j ≠ i }

/-- R25: the slot joins the pool wait list at its tail, if it is not already on it. -/
def State.joinPoolWait (s : State) (i : SlotId) : State :=
  if i ∈ s.poolWait then s else { s with poolWait := s.poolWait ++ [i] }

/-- The four ends of admission (R23). -/
inductive Admission where
  | collision | quota | pool | admitted
  deriving DecidableEq, Repr

/-- R23: the first check that applies decides. -/
def State.admission (s : State) (i : SlotId) (r : Request) : Admission :=
  let sl := s.slot i
  if sl.pendingTag r.tag then .collision
  else if sl.policy.quota ≤ sl.entries.length then .quota
  else if s.poolFree = 0 then .pool
  else .admitted

/-- R23, step 4: an entry at the tail of the slot's list, and the request forwarded to the card. -/
def State.admitRequest (s : State) (i : SlotId) (r : Request) (arrival deadline : Micros) : State :=
  (s.modSlot i fun sl => { sl with entries := sl.entries ++ [r.entry arrival deadline] }).toCard i (.request .host r)

/-- The request enters the downstream hold, with its arrival time and its hold deadline (R9). -/
def State.holdRequest (s : State) (i : SlotId) (r : Request) : State :=
  s.modSlot i fun sl =>
    { sl with chan.hold := some { req := r, arrival := s.now, deadline := s.after sl.policy.slotTimeout } }

/-- The downstream hold is emptied; the slot leaves the pool wait list (R25). -/
def State.emptyHold (s : State) (i : SlotId) : State :=
  (s.modSlot i fun sl => { sl with chan.hold := none }).leavePoolWait i

/-- R6 with the card link UP and the hold empty: a posted request is forwarded, a non-posted one offered to admission. -/
def State.takeOpen (s : State) (i : SlotId) (r : Request) : State :=
  if r.posted then s.toCard i (.request .host r)
  else match s.admission i r with
    | .collision => s.refuseTag i r.tag
    | .quota => s.holdRequest i r
    | .pool => (s.holdRequest i r).joinPoolWait i
    | .admitted => s.admitRequest i r s.now (s.after (s.slot i).policy.slotTimeout)

/-- A host request arrives with the hold empty (R5, R6, R9, R67). -/
def State.hostArrive (s : State) (i : SlotId) (r : Request) : State :=
  let sl := s.slot i
  if sl.inService then
    if sl.chan.linkUp then s.takeOpen i r else s.holdRequest i r
  else if sl.ctl.state = .restoring then s.holdRequest i r
  else s.absorb i r

/-- R8: while the hold is occupied, or earlier requests wait in the link's buffering, a request stays in that buffering and has not yet
arrived. While the upstream value is IN-RESET none arrives (R17). -/
def State.hostRequest (s : State) (i : SlotId) (r : Request) : State :=
  let ch := (s.slot i).chan
  if ch.inReset then s
  else if ch.hold.isSome || !ch.hostWaiting.isEmpty then
    s.modSlot i fun sl => { sl with chan.hostWaiting := sl.chan.hostWaiting ++ [r] }
  else s.hostArrive i r

/-- R8: the next host request in the link may arrive when the hold is empty. -/
def Slot.hostMayArrive (sl : Slot) : Bool :=
  !sl.chan.inReset && sl.chan.hold.isNone && !sl.chan.hostWaiting.isEmpty

/-- R8: the oldest request of the link's buffering arrives. -/
def State.takeHostWaiting (s : State) (i : SlotId) : State :=
  match (s.slot i).chan.hostWaiting with
  | [] => s
  | r :: rest => (s.modSlot i fun sl => { sl with chan.hostWaiting := rest }).hostArrive i r

/-- R9: a held request may proceed in ONLINE or SUSPECT with the card link UP. -/
def Slot.holdMayProceed (sl : Slot) : Bool := sl.inService && sl.chan.linkUp

/-- R9, R23: the held request is re-offered; it keeps its arrival time and deadline. -/
def State.offerHeld (s : State) (i : SlotId) : State :=
  match (s.slot i).chan.hold with
  | none => s
  | some h =>
    if (s.slot i).holdMayProceed then
      if h.req.posted then (s.emptyHold i).toCard i (.request .host h.req)
      else match s.admission i h.req with
        | .collision => (s.emptyHold i).refuseTag i h.req.tag
        | .quota => s.leavePoolWait i
        | .pool => s.joinPoolWait i
        | .admitted => (s.emptyHold i).admitRequest i h.req h.arrival h.deadline
    else s

/-- R26: the freed entry is offered along the pool wait list until it is taken. A slot whose card link is not UP keeps its place and is
passed over (log 10). -/
def State.offerAlong : List SlotId → State → State
  | [], s => s
  | j :: rest, s =>
    if (s.slot j).holdMayProceed then
      let s' := s.offerHeld j
      if s'.poolFree < s.poolFree then s' else State.offerAlong rest s'
    else State.offerAlong rest s

/-- R26: an entry has been freed. -/
def State.poolOffer (s : State) : State := s.offerAlong s.poolWait

/-- R25: a held request that waits for quota is re-offered. -/
def State.quotaOffer (s : State) (i : SlotId) : State := if i ∈ s.poolWait then s else s.offerHeld i

/-- R33, steps 1 and 2: the entry's place returns to the pool and is offered to the pool wait list, then the slot's own held request is
re-offered. -/
def State.freeEntry (s : State) (i : SlotId) (tag : Tag) : State :=
  ((s.modSlot i fun sl => { sl with entries := sl.entries.eraseP fun e => e.tag == tag }).poolOffer).quotaOffer i

/-- R11: a request in the downstream hold is absorbed as a request arriving in the present state. -/
def State.absorbHeld (s : State) (i : SlotId) : State :=
  match (s.slot i).chan.hold with
  | none => s
  | some h => (s.emptyHold i).absorb i h.req

/-- R71: a card request at a closed gate. -/
def State.blockCard (s : State) (i : SlotId) (r : Request) : State :=
  if r.posted then s else s.toCard i (.completion (Completion.bare r.tag .unsupported))

/-- R11: a request in the card-side hold is blocked as the gate closes. -/
def State.blockHeld (s : State) (i : SlotId) : State :=
  match (s.slot i).chan.cardHold with
  | none => s
  | some r => (s.modSlot i fun sl => { sl with chan.cardHold := none }).blockCard i r

end Sys2Proof.Machine
end

