-- ==== Sys2Proof/Machine/Recovery.lean ====
section
/-! DEFINITION. Chapters 5 and 7 and the replay of chapter 6: entry to every state but FENCING, the inrush arbiter, attempts and their
failures, the discharge check and the replay. -/

namespace Sys2Proof.Machine

/-! ### QUARANTINED and the inrush arbiter -/

/-- The places of a list without slot `i`'s (R144, R145). -/
def dropPlace (i : SlotId) (l : List Place) : List Place := l.filter fun p => p.slot ≠ i

/-- R84: entry to QUARANTINED. The power-off instant is set even if power was already off, and a place in the inrush queue is removed
without a check of its own (R90: no attempt is left to hold one). -/
def State.enterQuarantined (s : State) (i : SlotId) (reason : Reason) : State :=
  let s := s.drive i fun sl =>
    { sl.moveTo .quarantined with
      ctl.reason := some reason, ctl.powerCut := false, ctl.resetKind := none, ctl.origin := none }
  let s := { s with
    arbiter.queue := dropPlace i s.arbiter.queue
    arbiter.granted := dropPlace i s.arbiter.granted }
  let s := s.setPowerOff i
  (s.reportState i (some reason) (some (s.slot i).ctl.attempts)).absorbHeld i

/-- R90: the BUDGET failure: an ATTEMPT report, then QUARANTINED. -/
def State.budgetFailure (s : State) (i : SlotId) : State :=
  (s.report .attempt i (some .budget) (some (s.slot i).ctl.attempts)).enterQuarantined i .budget

/-- R99: at the grant the slot enters RAMPING. -/
def State.enterRamping (s : State) (i : SlotId) : State :=
  s.drive i fun sl => { sl.moveTo .ramping with ctl.rampTimer := some (s.afterMs sl.policy.ramp) }

/-- The rail partner of a slot: the pairs are 0 and 1, 2 and 3, 4 and 5, 6 and 7 (R140). -/
def partner (i : SlotId) : SlotId := ⟨if i.val % 2 = 0 then i.val + 1 else i.val - 1, by split <;> omega⟩

/-- The granted sum (R137). -/
def Arbiter.sum (a : Arbiter) : Nat := (a.granted.map fun p => p.demand).sum

/-- R140: both conditions of a grant. -/
def Arbiter.fits (a : Arbiter) (p : Place) : Bool :=
  a.sum + p.demand ≤ a.budget && !(a.granted.any fun q => q.slot == partner p.slot)

/-- R142: the check works through the queue from its head, given as the first argument. -/
def State.grantLoop : List Place → State → State
  | [], s => s
  | p :: rest, s =>
    if s.arbiter.budget < p.demand then
      State.grantLoop rest (({ s with arbiter.queue := rest } : State).budgetFailure p.slot)
    else if s.arbiter.fits p then
      State.grantLoop rest
        (({ s with arbiter.queue := rest, arbiter.granted := s.arbiter.granted ++ [p] } : State).enterRamping p.slot)
    else s

/-- R142: a grant check. -/
def State.grantCheck (s : State) : State := s.grantLoop s.arbiter.queue

/-- R144: the slot leaves the granted set and a grant check runs, before the slot leaves RAMPING. -/
def State.release (s : State) (i : SlotId) : State :=
  ({ s with arbiter.granted := dropPlace i s.arbiter.granted } : State).grantCheck

/-- R145: the slot leaves the queue without a grant; a grant check runs at once if it stood at the head, here before the slot enters
DISCHARGING and makes any STATE report there, which is the model's choice (log 33). -/
def State.depart (s : State) (i : SlotId) : State :=
  let head := s.arbiter.queue.head?.any fun p => p.slot == i
  let s := { s with arbiter.queue := dropPlace i s.arbiter.queue }
  if head then s.grantCheck else s

/-- R97, R141: entry to POWER_WAIT, and the request to the arbiter with the demand in force. -/
def State.enterPowerWait (s : State) (i : SlotId) : State :=
  let s := s.drive i fun sl => sl.moveTo .powerWait
  let demand := (s.slot i).policy.demand
  if s.arbiter.budget < demand then s.budgetFailure i
  else ({ s with arbiter.queue := s.arbiter.queue ++ [{ slot := i, demand := demand }] } : State).grantCheck

/-! ### OFF, EMPTY and DISCHARGING -/

/-- R106: entry to OFF. -/
def State.enterOff (s : State) (i : SlotId) : State :=
  let s := s.drive i fun sl =>
    { sl.moveTo .off with
      ctl.attempts := 0, ctl.resetKind := none, ctl.origin := none, ctl.powerCut := false }
  s.reportState i (s.slot i).ctl.reason none

/-- R109: entry to EMPTY. -/
def State.enterEmpty (s : State) (i : SlotId) : State :=
  let s := s.drive i fun sl =>
    { sl.moveTo .empty with
      chan.identity := none
      outbound := { tags := [], deadline := none }
      store := sl.store.empty
      ctl.score := 0, ctl.attempts := 0, ctl.resetKind := none, ctl.origin := none, ctl.powerCut := false
      ctl.reason := some .removed }
  s.reportState i (some .removed) none

/-- R93: the latest kept 12 V result is below 1,000 mV (steps of 4 mV) and the latest 3.3 V result below 300 mV (steps of 1 mV), each
from a conversion begun after the power-off instant. -/
def Rails.fallen (r : Rails) : Bool :=
  r.v12.any (fun x => x.afterOff && 4 * x.code < 1000) && r.v33.any fun x => x.afterOff && x.code < 300

/-- R93: the discharge check passes. -/
def Slot.discharged (sl : Slot) : Bool := sl.ctl.minOffElapsed && sl.rails.fallen

/-- R93, R94: the discharge check of a slot in DISCHARGING, and where a passing one leads. -/
def State.dischargeCheck (s : State) (i : SlotId) : State :=
  let sl := s.slot i
  if sl.ctl.state = .discharging && sl.discharged then
    match sl.ctl.target with
    | some .bringUp => s.enterPowerWait i
    | _ => if sl.ctl.present then s.enterOff i else s.enterEmpty i
  else s

/-- R92: entry to DISCHARGING. -/
def State.enterDischarging (s : State) (i : SlotId) (target : Target) : State :=
  let s := s.drive i fun sl =>
    { sl.moveTo .discharging with
      ctl.powerCut := false
      ctl.target := some target
      ctl.dischargeTimer := some (s.afterMs sl.policy.dischargeTimeout) }
  (s.absorbHeld i).dischargeCheck i

/-! ### RESETTING, TRAINING, ISOLATED and the start of an attempt -/

/-- R101: entry to RESETTING from RAMPING or ISOLATED. -/
def State.enterResetting (s : State) (i : SlotId) : State :=
  s.drive i fun sl => { sl.moveTo .resetting with ctl.pulseTimer := .running (s.afterMs sl.policy.resetPulse) }

/-- R102: entry to TRAINING. -/
def State.enterTraining (s : State) (i : SlotId) : State :=
  s.drive i fun sl => { sl.moveTo .training with ctl.trainingTimer := some (s.afterMs sl.policy.training) }

/-- R88: an attempt starts, of the kind, origin and count before the increase given. A COLD bring-up from OFF or EMPTY with min-off
elapsed goes to POWER_WAIT at once. -/
def State.startAttempt (s : State) (i : SlotId) (kind : ResetKind) (origin : Origin) (count : Nat) : State :=
  let sl := s.slot i
  let s := s.modSlot i fun sl =>
    { sl with ctl.attempts := count + 1, ctl.resetKind := some kind, ctl.origin := some origin }
  match kind with
  | .warm => s.enterResetting i
  | .cold =>
    if (sl.ctl.state = .off || sl.ctl.state = .empty) && sl.ctl.minOffElapsed then s.enterPowerWait i
    else s.enterDischarging i .bringUp

/-- R60, R80 to R82: the kind of an attempt from ISOLATED: as named, or COLD if the power-cut mark is set. -/
def Slot.attemptKind (sl : Slot) (named : ResetKind) : ResetKind := if sl.ctl.powerCut then .cold else named

/-- R80, R81: an attempt of the first reset kind from ISOLATED. -/
def State.firstAttempt (s : State) (i : SlotId) : State :=
  s.startAttempt i ((s.slot i).attemptKind (s.slot i).policy.firstKind) .recovery 0

/-- R78, R80, R81: entry to ISOLATED. The policy read here governs the stay. -/
def State.enterIsolated (s : State) (i : SlotId) : State :=
  let s := s.drive i fun sl => { sl.moveTo .isolated with ctl.isoPolicy := some sl.policy.policy }
  let s := s.reportState i (s.slot i).ctl.reason none
  match (s.slot i).policy.policy with
  | .auto => s.firstAttempt i
  | .ask => s.modSlot i fun sl => { sl with ctl.decisionTimer := .running (s.afterMs sl.policy.decisionTime) }
  | .hold => s

/-! ### RESTORING and the replay -/

/-- R104, R76: the outbound set holds a ghost. -/
def Outbound.hasGhost (o : Outbound) : Bool := o.tags.any fun t => t.ghost

/-- R104: entry to ONLINE from RESTORING. -/
def State.enterOnline (s : State) (i : SlotId) : State :=
  let s := (s.drive i fun sl => sl.moveTo .online).offerHeld i
  let sl := s.slot i
  let s := s.modSlot i fun sl =>
    { sl with
      ctl.score := 0, ctl.attempts := 0, ctl.resetKind := none, ctl.origin := none
      outbound.deadline := if sl.outbound.hasGhost then some (s.after sl.policy.slotTimeout) else sl.outbound.deadline }
  let s := s.reportState i sl.ctl.reason (some sl.ctl.attempts)
  if sl.ctl.origin = some .upstream || sl.ctl.origin = some .bringUp then s
  else (s.reportRestored i sl.store.replayed sl.store.incomplete).modSlot i fun sl => { sl with store.incomplete := false }

/-- R129: the replay is done. -/
def State.replayDone (s : State) (i : SlotId) : State :=
  (s.modSlot i fun sl => { sl with store := sl.store.stopReplay }).enterOnline i

/-- R125: one entry is written into the card under the next replay tag. -/
def State.issueWrite (s : State) (i : SlotId) (e : ImgEntry) : State :=
  let tag := (s.slot i).store.nextTag
  (s.modSlot i fun sl =>
    { sl with
      store.outstanding := some { tag := tag, deadline := s.after sl.policy.slotTimeout }
      store.nextTag := tag + 1 }).toCard i
    (.request .part { tag := tag, kind := .cfgWrite e.offset e.mask e.value })

/-- R125, R129: the entry at the replay cursor is written; with none there the replay is done. -/
def State.replayNext (s : State) (i : SlotId) : State :=
  let st := (s.slot i).store
  match st.cursor.bind fun n => st.sequence[n]? with
  | some e => s.issueWrite i e
  | none => s.replayDone i

/-- R103, R124: entry to RESTORING; the replay sequence is fixed and its first write issued. -/
def State.enterRestoring (s : State) (i : SlotId) : State :=
  (s.drive i fun sl =>
    { sl.moveTo .restoring with
      ctl.restoreTimer := some (s.after Config.restoreMicros)
      store.sequence := sl.store.replayOrder, store.cursor := some 0, store.replayed := 0 }).replayNext i

/-- R131: what a clearing of the image does to a replay: with a write outstanding it goes on; otherwise it is done. -/
def State.replayCleared (s : State) (i : SlotId) : State :=
  let sl := s.slot i
  if sl.ctl.state = .restoring && sl.store.outstanding.isNone then s.replayDone i else s

/-! ### Failures and abandonment -/

/-- R89, R91: what the state an attempt stands in gives back: RAMPING its grant, RESTORING its replay. -/
def State.leaveStage (s : State) (i : SlotId) : State :=
  match (s.slot i).ctl.state with
  | .ramping => s.release i
  | .restoring => s.modSlot i fun sl => { sl with store := sl.store.stopReplay }
  | _ => s

/-- R89: an attempt fails. -/
def State.attemptFailure (s : State) (i : SlotId) (reason : Reason) : State :=
  let s := (s.leaveStage i).modSlot i fun sl => { sl with ctl.reason := some reason }
  let ctl := (s.slot i).ctl
  let s := s.report .attempt i (some reason) (some ctl.attempts)
  if ctl.attempts < (s.slot i).policy.maxAttempts then
    (s.modSlot i fun sl => { sl with ctl.attempts := sl.ctl.attempts + 1, ctl.resetKind := some .cold }).enterDischarging i
      .bringUp
  else s.enterQuarantined i .exhausted

/-- R91: PWR.OFF or a presence loss abandons the attempt in progress. A departure from the inrush queue and its grant check are taken before
the entry to DISCHARGING: for RAMPING so R144 says, for POWER_WAIT it is the model's choice (log 33). -/
def State.abandon (s : State) (i : SlotId) (reason : Reason) : State :=
  if (s.slot i).ctl.state = .discharging then
    s.modSlot i fun sl => { sl with ctl.reason := some reason, ctl.resetKind := none, ctl.target := some .off }
  else
    let s := if (s.slot i).ctl.state = .powerWait then s.depart i else s.leaveStage i
    (s.modSlot i fun sl => { sl with ctl.reason := some reason, ctl.resetKind := none }).enterDischarging i .off

/-! ### The slot timers of an attempt -/

/-- MIN_OFF_EXPIRY: min-off elapsed becomes yes, and a slot in DISCHARGING is checked (R86, R93). -/
def State.minOffExpiry (s : State) (i : SlotId) : State :=
  s.when (s.due (s.slot i).ctl.minOffTimer) fun s =>
    (s.modSlot i fun sl => { sl with ctl.minOffTimer := none, ctl.minOffElapsed := true }).dischargeCheck i

/-- DISCHARGE_TIMEOUT: QUARANTINED; in an attempt an ATTEMPT report goes before (R90, R95). -/
def State.dischargeExpiry (s : State) (i : SlotId) : State :=
  s.when ((s.slot i).ctl.state = .discharging && s.due (s.slot i).ctl.dischargeTimer) fun s =>
    let ctl := (s.slot i).ctl
    let s := if ctl.target = some .bringUp then
        s.report .attempt i (some .dischargeTimeout) (some ctl.attempts) else s
    s.enterQuarantined i .dischargeTimeout

/-- R99: a kept voltage result that carries its qualifying mark and lies within a window in mV, ends included. -/
def inWindow (r : Option RailResult) (step low high : Nat) : Bool :=
  r.any fun x => x.mark && low ≤ step * x.code && step * x.code ≤ high

/-- R99: both rails stand in their windows. -/
def Rails.good (r : Rails) : Bool := inWindow r.v12 4 11000 13000 && inWindow r.v33 1 3000 3600

/-- RAMP_EXPIRY: the grant is released and the slot enters RESETTING, or the attempt fails with reason RAIL (R99). -/
def State.rampExpiry (s : State) (i : SlotId) : State :=
  s.when ((s.slot i).ctl.state = .ramping && s.due (s.slot i).ctl.rampTimer) fun s =>
    if (s.slot i).rails.good then (s.release i).enterResetting i else s.attemptFailure i .rail

/-- RESET_PULSE_EXPIRY: CRST is released and the slot enters TRAINING (R101). -/
def State.pulseExpiry (s : State) (i : SlotId) : State :=
  s.when ((s.slot i).ctl.state = .resetting && (s.slot i).ctl.pulseTimer = .running s.now) fun s => s.enterTraining i

/-- TRAINING_TIMEOUT (R102). -/
def State.trainingExpiry (s : State) (i : SlotId) : State :=
  s.when ((s.slot i).ctl.state = .training && s.due (s.slot i).ctl.trainingTimer) fun s =>
    s.attemptFailure i .trainingTimeout

/-- RESTORE_TIMEOUT (R103). -/
def State.restoreExpiry (s : State) (i : SlotId) : State :=
  s.when ((s.slot i).ctl.state = .restoring && s.due (s.slot i).ctl.restoreTimer) fun s =>
    s.attemptFailure i .restoreTimeout

/-- RESEND_TIMER_EXPIRY: the same entry is written again (R127). -/
def State.resendExpiry (s : State) (i : SlotId) : State :=
  s.when ((s.slot i).ctl.state = .restoring && s.due (s.slot i).store.resendTimer) fun s =>
    (s.modSlot i fun sl => { sl with store.resendTimer := none }).replayNext i

/-- The deadline of the outstanding replay write (R125). -/
def ImageStore.writeDeadline (st : ImageStore) : Timer := st.outstanding.map fun o => o.deadline

/-- REPLAY_WRITE_DEADLINE: the replay fails (R128). -/
def State.replayDeadline (s : State) (i : SlotId) : State :=
  s.when ((s.slot i).ctl.state = .restoring && s.due (s.slot i).store.writeDeadline) fun s =>
    s.attemptFailure i .restoreFail

/-- DECISION_EXPIRY: the lapse action (R81). -/
def State.decisionExpiry (s : State) (i : SlotId) : State :=
  s.when ((s.slot i).ctl.state = .isolated && (s.slot i).ctl.decisionTimer = .running s.now) fun s =>
    match (s.slot i).policy.lapse with
    | .recover => s.firstAttempt i
    | .quarantine => s.enterQuarantined i .lapse

/-- R126: a completion addressed to a replay write. -/
def State.replayCompletion (s : State) (i : SlotId) (c : Completion) : State :=
  let st := (s.slot i).store
  if (s.slot i).ctl.state = .restoring && (st.outstanding.any fun o => o.tag == c.tag) then
    match c.status with
    | .success =>
      if c.data.isEmpty && c.final then
        (s.modSlot i fun sl =>
          { sl with
            store.outstanding := none
            store.replayed := sl.store.replayed + 1
            store.cursor := sl.store.cursor.map fun n => n + 1 }).replayNext i
      else s
    | .retry =>
      s.modSlot i fun sl =>
        { sl with store.outstanding := none, store.resendTimer := some (s.after Config.resendMicros) }
    | _ => s.attemptFailure i .restoreFail
  else s

end Sys2Proof.Machine
end

