-- ==== Sys2Proof/Machine/Fencing.lean ====
section
/-! DEFINITION. Chapter 4: fence triggers, the drain and its sweep, and the exit from FENCING. -/

namespace Sys2Proof.Machine

/-- R34: the fill-mode answer of a pending entry, for the dwords still owed. -/
def State.answerEntry (s : State) (i : SlotId) (e : Entry) : State :=
  s.toHost i (.completion
    ((s.slot i).policy.fill.answer e.tag (if e.kind.isRead then e.owed - e.delivered else 0)))

/-- R37: the remaining entries are answered and freed, oldest first. -/
def State.sweepLoop (i : SlotId) : List Entry → State → State
  | [], s => s
  | e :: rest, s => State.sweepLoop i rest ((s.answerEntry i e).freeEntry i e.tag)

/-- R37: the drain-end sweep. -/
def State.sweep (s : State) (i : SlotId) : State := s.sweepLoop i (s.slot i).entries

/-- R66: the slot leaves FENCING by its disposition. -/
def State.leaveFencing (s : State) (i : SlotId) : State :=
  match (s.slot i).ctl.disposition with
  | some .off => s.enterDischarging i .off
  | _ => s.enterIsolated i

/-- R63: the drain ends; what is left is swept, and the slot leaves FENCING. -/
def State.endDrain (s : State) (i : SlotId) : State := (s.sweep i).leaveFencing i

/-- R72: every tag becomes a ghost, and the ghost deadline becomes absent. -/
def Outbound.allGhosts (o : Outbound) : Outbound :=
  { tags := o.tags.map fun t => { t with ghost := true }, deadline := none }

/-- R54, R62: a fence trigger is taken in ONLINE or SUSPECT; in any other state it is ignored as a fence (R55). The drain is 0 for
reason REMOVED (R61), and for OVERCURRENT power goes off and the power-cut mark is set. -/
def State.fence (s : State) (i : SlotId) (reason : Reason) (disposition : Disposition) : State :=
  s.when (s.slot i).inService fun s =>
    let drain := if reason = .removed then 0 else (s.slot i).policy.drain
    let s := s.drive i fun sl =>
      { sl.moveTo .fencing with
        ctl.reason := some reason
        ctl.disposition := some disposition
        ctl.powerCut := sl.ctl.powerCut || reason = .overcurrent
        ctl.drainTimer := some (s.after drain)
        outbound := sl.outbound.allGhosts }
    let s := (s.absorbHeld i).blockHeld i
    let s := s.reportState i (some reason) (some (s.slot i).ctl.score)
    if drain = 0 || (s.slot i).entries.isEmpty then s.endDrain i else s

/-- R33: the entry is freed; a list left empty in FENCING ends the drain (R63). -/
def State.removeEntry (s : State) (i : SlotId) (tag : Tag) : State :=
  let s := s.freeEntry i tag
  if (s.slot i).ctl.state = .fencing && (s.slot i).entries.isEmpty then s.leaveFencing i else s

/-- DRAIN_EXPIRY (R63). -/
def State.drainExpiry (s : State) (i : SlotId) : State :=
  s.when ((s.slot i).ctl.state = .fencing && s.due (s.slot i).ctl.drainTimer) fun s => s.endDrain i

/-- R64: power is cut and the drain ends. -/
def State.overcurrentInFencing (s : State) (i : SlotId) : State :=
  (s.drive i fun sl => { sl with ctl.powerCut := true }).endDrain i

/-- R65: a presence loss ends the drain, and the slot goes to DISCHARGING with target OFF whatever its disposition. The recorded reason stays
(R65), and that a card reinserted during the discharge carries it into OFF, where R106 names REMOVED, is the model's choice (log 35). -/
def State.removedInFencing (s : State) (i : SlotId) : State := (s.sweep i).enterDischarging i .off

end Sys2Proof.Machine
end

