-- ==== Sys2Proof/Machine/Scoring.lean ====
section
/-! DEFINITION. Chapter 3: card-fault weights, evaluation, decay; and the CALERT trigger. -/

namespace Sys2Proof.Machine

/-- R50, R51: entry to SUSPECT, or the return to ONLINE, with its STATE report. -/
def State.enterService (s : State) (i : SlotId) (st : SlotState) : State :=
  let s := s.drive i fun sl => sl.moveTo st
  s.reportState i (some .score) (some (s.slot i).ctl.score)

/-- The three outcomes of an evaluation that act (R50). -/
inductive Verdict where
  | stay | fence | warn | calm
  deriving DecidableEq, Repr

/-- R50: the first test that applies. -/
def Scorer.verdict (p : Scorer) (st : SlotState) (score : Nat) : Verdict :=
  if !st.isOpen then .stay
  else if p.fence ≤ score then .fence
  else if st = .online && p.warn ≤ score then .warn
  else if st = .suspect && score < p.warn / 2 then .calm
  else .stay

/-- The verdict on slot `i` as it stands. -/
def State.verdict (s : State) (i : SlotId) : Verdict :=
  s.scorer.verdict (s.slot i).ctl.state (s.slot i).ctl.score

/-- R50: the slot is evaluated after an event of kind `why`. -/
def State.evaluate (s : State) (i : SlotId) (why : Reason) : State :=
  match s.verdict i with
  | .stay => s
  | .fence => (s.report .hang i (some why) (some (s.slot i).ctl.score)).fence i .score .recover
  | .warn => s.enterService i .suspect
  | .calm => s.enterService i .online

/-- R46: a card-fault event adds its weight, saturating, and the slot is evaluated. Outside ONLINE and SUSPECT, and with a weight of 0,
nothing reaches the scorer. -/
def State.cardFault (s : State) (i : SlotId) (weight : Nat) (why : Reason) : State :=
  s.when ((s.slot i).inService && weight != 0) fun s =>
    (s.modSlot i fun sl => { sl with ctl.score := min (sl.ctl.score + weight) 255 }).evaluate i why

/-- R48, R157: what a decay event does to a slot before its evaluation. -/
def Slot.decay (sl : Slot) : Slot :=
  { sl with
    ctl.score := if sl.inService then sl.ctl.score * 3 / 4 else sl.ctl.score
    permit.errantReported := false }

/-- R48: the slots on the list are evaluated one after another, in any order (log 3); the first argument is the list's length. -/
def State.evaluateAll : Nat → List SlotId → State → State
  | n + 1, i :: j :: rest, s =>
    let l := i :: j :: rest
    let k := Config.pick s.freeCount % l.length
    State.evaluateAll n (l.eraseIdx k)
      (({ s with freeCount := s.freeCount + 1 } : State).evaluate (l.getD k i) .decay)
  | _, [i], s => s.evaluate i .decay
  | _, _, s => s

/-- DECAY_EVENT: the next epoch starts, every score in service decays, every errant-reported mark is cleared, and the slots whose
evaluation acts are evaluated (R48, R50, R157). -/
def State.decayEvent (s : State) : State :=
  s.when (s.due s.scorer.decayTimer) fun s =>
    let s := { s with scorer.decayTimer := some (s.afterMs s.scorer.decayEpoch) }
    let s := s.mapSlots Slot.decay
    let acting := Config.slotIds.filter fun i => s.verdict i != .stay
    s.evaluateAll acting.length acting

/-- CALERT_ASSERTION: the kept level becomes asserted; at a change in ONLINE or SUSPECT with the enable on, a fence trigger (R56, R173). -/
def State.calertAssertion (s : State) (i : SlotId) : State :=
  s.when (!(s.slot i).pins.calert) fun s =>
    let s := s.modSlot i fun sl => { sl with pins.calert := true }
    s.when (s.slot i).policy.calertEnable fun s => s.fence i .calert .recover

/-- CALERT_RELEASE: only the kept level changes (R173). -/
def State.calertRelease (s : State) (i : SlotId) : State := s.modSlot i fun sl => { sl with pins.calert := false }

end Sys2Proof.Machine
end

