-- ==== Sys2Proof/Machine/Pending.lean ====
section
/-! DEFINITION. Chapter 2: matching of card completions, entry expiry; and the expiry of the downstream hold (R10). -/

namespace Sys2Proof.Machine

/-- What a completion is to the entry with its tag (R29 to R32). -/
inductive Fit where
  | ends | partly | malformed
  deriving DecidableEq, Repr

/-- The configuration kinds, which RETRY may answer (R31). -/
def EntryKind.isConfig : EntryKind → Bool
  | .cfgRead _ => true
  | .cfgWrite _ _ _ => true
  | _ => false

/-- R29 to R32: whether a completion fits an entry, and whether it ends it. -/
def Entry.fit (e : Entry) (c : Completion) : Fit :=
  match c.status with
  | .success =>
    if e.kind.isRead then
      if e.owed < e.delivered + c.data.length then .malformed
      else if c.final then (if e.delivered + c.data.length = e.owed then .ends else .malformed)
      else if c.data.isEmpty then .malformed
      else .partly
    else if c.final && c.data.isEmpty then .ends
    else .malformed
  | .retry => if e.kind.isConfig then .ends else .malformed
  | _ => .ends

/-- R13: the identity a completion that ends an entry captures (log 14). -/
def Entry.identity (e : Entry) (c : Completion) : Option Dword :=
  match e.kind, c.status, c.data with
  | .cfgRead offset, .success, [d] => if offset = 0 && d != Dword.ones then some d else none
  | _, _, _ => none

/-- R13, R32: what the identity capture and the image store take from a completion that ends an entry. -/
def Slot.capture (sl : Slot) (filter : List Span) (e : Entry) (c : Completion) : Slot :=
  let sl := match e.identity c with
    | some d => { sl with chan.identity := some d }
    | none => sl
  match e.kind, c.status with
  | .cfgWrite offset value mask, .success => { sl with store := (sl.store.record filter offset value mask).1 }
  | _, _ => sl

/-- R29: dwords delivered of the entry with the tag increases. -/
def Slot.deliver (sl : Slot) (tag : Tag) (n : Nat) : Slot :=
  { sl with entries := sl.entries.map fun e => if e.tag = tag then { e with delivered := e.delivered + n } else e }

/-- R27: a card completion is matched by its tag against the slot's list. -/
def State.matchCompletion (s : State) (i : SlotId) (c : Completion) : State :=
  match (s.slot i).entries.find? fun e => e.tag == c.tag with
  | none => s.cardFault i s.scorer.stray .stray
  | some e =>
    match e.fit c with
    | .malformed => s.cardFault i s.scorer.malformed .malformed
    | .partly => (s.toHost i (.completion c)).modSlot i fun sl => sl.deliver c.tag c.data.length
    | .ends => ((s.toHost i (.completion c)).modSlot i fun sl => sl.capture s.filter e c).removeEntry i c.tag

/-- The states in which the pending table matches card completions (R27). -/
def SlotState.matches (st : SlotState) : Bool := st.isOpen || st == .fencing

/-- CARD_COMPLETION: to the pending table, or to the replay, by its requester identity (R2, R5, R7, R27, R126). None arrives while the
card link is DOWN (R14; log 8). -/
def State.cardCompletion (s : State) (i : SlotId) (dest : Addressee) (c : Completion) : State :=
  s.when (s.slot i).chan.linkUp fun s =>
    match dest with
    | .part => s.replayCompletion i c
    | .host => s.when (s.slot i).ctl.state.matches fun s => s.matchCompletion i c

/-- ENTRY_EXPIRY: the entry is answered by fill mode and removed; then, in ONLINE or SUSPECT, the timeout weight (R34, R35). -/
def State.entryExpiry (s : State) (i : SlotId) (tag : Tag) : State :=
  match (s.slot i).entries.find? fun e => e.tag == tag && s.due (some e.deadline) with
  | none => s
  | some e =>
    let s := (s.answerEntry i e).removeEntry i e.tag
    s.cardFault i s.scorer.timeout .timeout

/-- HOLD_EXPIRY: the held request is answered by fill mode or discarded, and the timeout weight follows in ONLINE or SUSPECT (R10). -/
def State.holdExpiry (s : State) (i : SlotId) : State :=
  match (s.slot i).chan.hold with
  | none => s
  | some h =>
    s.when (s.due (some h.deadline)) fun s =>
      let s := s.emptyHold i
      let s :=
        if h.req.posted then s.countDropped i
        else (s.toHost i (.completion
          ((s.slot i).policy.fill.answer h.req.tag h.req.kind.fillDwords))).countAbsorbed i
      s.cardFault i s.scorer.timeout .timeout

end Sys2Proof.Machine
end

