-- ==== Sys2Proof/Machine/Dma.lean ====
section
/-! DEFINITION. The card's own requests: the outbound set (R72 to R77), the card-side hold (R12) and the permit checker (chapter 8). -/

namespace Sys2Proof.Machine

/-! ### The permit check -/

/-- R151: the first page of a span. -/
def firstPage (addr : BitVec 48) : Nat := addr.toNat / 4096

/-- R151: the last byte of a span of `len` dwords. -/
def lastByte (addr : BitVec 48) (len : Nat) : Nat := addr.toNat + 4 * len - 1

/-- R152: a span of pages meets a deny range. -/
def Span.meets (r : Span) (first last : Nat) : Bool := r.base ≤ last && first ≤ r.limit

/-- R153: a window contains a whole span of pages. -/
def Span.holds (w : Span) (first last : Nat) : Bool := w.base ≤ first && last ≤ w.limit

/-- R151 to R153: the reason a span fails the check, or none if it passes. -/
def permitFailure (deny windows : List Span) (addr : BitVec 48) (len : Nat) : Option Reason :=
  let first := firstPage addr
  let last := lastByte addr len / 4096
  if 2 ^ 48 ≤ lastByte addr len then some .outside
  else if deny.any fun r => r.meets first last then some .denied
  else if windows.isEmpty || windows.any fun w => w.holds first last then none
  else some .outside

/-- The defined places of a set of windows or deny ranges (R149). -/
def defined {n : Nat} (places : Vector (Option Span) n) : List Span := places.toList.filterMap id

/-- The check of a span of slot `i` against the deny ranges and the slot's windows as they stand (R160). -/
def State.permitCheck (s : State) (i : SlotId) (addr : BitVec 48) (len : Nat) : Option Reason :=
  permitFailure (defined s.deny) (defined (s.slot i).permit.windows) addr len

/-- R157, R156: the ERRANT report, once in an epoch, and the errant-DMA weight. -/
def State.errant (s : State) (i : SlotId) (addr : BitVec 48) (why : Reason) : State :=
  let s :=
    if (s.slot i).permit.errantReported then s
    else (s.report .errant i (some why) (some (firstPage addr))).modSlot i fun sl =>
      { sl with permit.errantReported := true }
  s.cardFault i s.scorer.errant .errant

/-- R73, R154: the tag joins the set as a live tag. -/
def Outbound.join (o : Outbound) (tag : Tag) : Outbound := { o with tags := o.tags ++ [{ tag := tag, ghost := false }] }

/-- R154, R155: the request is checked and forwarded, or turned back. -/
def State.throughChecker (s : State) (i : SlotId) (r : Request) : State :=
  match r.kind with
  | .memRead addr len =>
    match s.permitCheck i addr len with
    | none => (s.toHost i (.request r)).modSlot i fun sl => { sl with outbound := sl.outbound.join r.tag }
    | some why => (s.toCard i (.completion (Completion.bare r.tag .unsupported))).errant i addr why
  | .memWrite addr data =>
    match s.permitCheck i addr data.length with
    | none => s.toHost i (.request r)
    | some why => s.errant i addr why
  | _ => s.toHost i (.request r)

/-! ### The outbound set and the card-side hold -/

/-- The set's entry for a tag (R72). -/
def Outbound.lookup (o : Outbound) (tag : Tag) : Option OutTag := o.tags.find? fun t => t.tag == tag

/-- A tag leaves the set (R74, R75). -/
def Outbound.leave (o : Outbound) (tag : Tag) : Outbound := { o with tags := o.tags.filter fun t => t.tag ≠ tag }

/-- The request waits in the card-side hold (R12). -/
def State.holdCard (s : State) (i : SlotId) (r : Request) : State :=
  s.modSlot i fun sl => { sl with chan.cardHold := some r }

/-- R7, R73: a card memory request or message at an open gate. -/
def State.cardOpen (s : State) (i : SlotId) (r : Request) : State :=
  if r.posted then s.throughChecker i r
  else
    let o := (s.slot i).outbound
    match o.lookup r.tag with
    | some t =>
      if t.ghost then s.holdCard i r
      else
        (s.toCard i (.completion (Completion.bare r.tag .unsupported))).report .protocol i (some .cardTag)
          (some r.tag.toNat)
    | none => if Config.outboundCap ≤ o.tags.length then s.holdCard i r else s.throughChecker i r

/-- R3: the kinds answered UNSUPPORTED in every state. -/
def TxKind.turnedBack : TxKind → Bool
  | .ioRead _ => true
  | .ioWrite _ _ _ => true
  | .cfgRead _ => true
  | .cfgWrite _ _ _ => true
  | _ => false

/-- A card request arrives (R3, R7, R71). -/
def State.cardArrive (s : State) (i : SlotId) (r : Request) : State :=
  if TxKind.turnedBack r.kind then s.toCard i (.completion (Completion.bare r.tag .unsupported))
  else if (s.slot i).inService then s.cardOpen i r
  else s.blockCard i r

/-- CARD_REQUEST: behind an occupied card-side hold, or behind earlier requests in the link, it waits in the link's buffering (R8). None
comes while the card link is DOWN (R14; log 8). -/
def State.cardRequest (s : State) (i : SlotId) (r : Request) : State :=
  let ch := (s.slot i).chan
  s.when ch.linkUp fun s =>
    if ch.cardHold.isSome || !ch.cardWaiting.isEmpty then
      s.modSlot i fun sl => { sl with chan.cardWaiting := sl.chan.cardWaiting ++ [r] }
    else s.cardArrive i r

/-- R8: the next card request in the link may arrive. -/
def Slot.cardMayArrive (sl : Slot) : Bool := sl.chan.linkUp && sl.chan.cardHold.isNone && !sl.chan.cardWaiting.isEmpty

/-- R8: the oldest card request of the link's buffering arrives. -/
def State.takeCardWaiting (s : State) (i : SlotId) : State :=
  match (s.slot i).chan.cardWaiting with
  | [] => s
  | r :: rest => (s.modSlot i fun sl => { sl with chan.cardWaiting := rest }).cardArrive i r

/-- R12: the request in the card-side hold is retried, in ONLINE and SUSPECT; with the gate closed the hold is empty (R11). -/
def State.retryCard (s : State) (i : SlotId) : State :=
  match (s.slot i).chan.cardHold with
  | none => s
  | some r => s.when (s.slot i).inService fun s => (s.modSlot i fun sl => { sl with chan.cardHold := none }).cardOpen i r

/-- A tag leaves the set, and a held card request is retried (R12, R72). -/
def State.leaveOutbound (s : State) (i : SlotId) (tag : Tag) : State :=
  (s.modSlot i fun sl => { sl with outbound := sl.outbound.leave tag }).retryCard i

/-- R74, R75: a host completion is forwarded, absorbed or discarded by the state of its tag and of the gate. -/
def State.takeHostCompletion (s : State) (i : SlotId) (c : Completion) : State :=
  let sl := s.slot i
  match sl.outbound.lookup c.tag with
  | some t =>
    let s := if sl.inService && !t.ghost then s.toCard i (.completion c) else s
    if c.final then s.leaveOutbound i c.tag else s
  | none => if sl.inService then s.report .protocol i (some .hostStray) (some c.tag.toNat) else s

/-- HOST_COMPLETION: none arrives while the upstream value is IN-RESET (section 1.7; log 8). -/
def State.hostCompletion (s : State) (i : SlotId) (c : Completion) : State :=
  s.when (!(s.slot i).chan.inReset) fun s => s.takeHostCompletion i c

/-- GHOST_DEADLINE: every ghost leaves the set, the deadline becomes absent, and a held card request is retried (R76). -/
def State.ghostDeadline (s : State) (i : SlotId) : State :=
  s.when (s.due (s.slot i).outbound.deadline) fun s =>
    (s.modSlot i fun sl =>
      { sl with outbound := { tags := sl.outbound.tags.filter fun t => !t.ghost, deadline := none } }).retryCard i

end Sys2Proof.Machine
end

