-- ==== Sys2Proof/Machine/Links.lean ====
section
/-! DEFINITION. The link events of both sides (sections 1.6 and 1.7), and IMG.DROP's clearing (R131, R133). -/

namespace Sys2Proof.Machine

/-- LINK_DOWN (R14, R16). What the card had sent and the channel has not taken is lost with the link (log 7). -/
def State.linkDown (s : State) (i : SlotId) : State :=
  let s := s.modSlot i fun sl => { sl with chan.linkUp := false, chan.cardWaiting := [] }
  if (s.slot i).inService then
    let s := s.cardFault i s.scorer.linkDown .linkDown
    s.when (s.slot i).inService fun s =>
      s.modSlot i fun sl => { sl with ctl.graceTimer := some (s.afterMs sl.policy.linkGrace) }
  else if (s.slot i).ctl.state = .restoring then s.attemptFailure i .link
  else s

/-- LINK_UP (R15, R16, R102). -/
def State.linkUp (s : State) (i : SlotId) : State :=
  let s := s.modSlot i fun sl => { sl with chan.linkUp := true }
  if (s.slot i).inService then (s.modSlot i fun sl => { sl with ctl.graceTimer := none }).offerHeld i
  else if (s.slot i).ctl.state = .training then s.enterRestoring i
  else s

/-- LINK_GRACE_EXPIRY (R15). -/
def State.graceExpiry (s : State) (i : SlotId) : State :=
  s.when ((s.slot i).inService && s.due (s.slot i).ctl.graceTimer) fun s => s.fence i .link .recover

/-- R17, R18: what every UPSTREAM-RESET clears: the upstream value becomes IN-RESET, both holds are emptied without answer, the image is
cleared, the identity becomes absent and the outbound set is cleared; the link's buffering on the host side is lost (log 7). -/
def State.upstreamClear (s : State) (i : SlotId) : State :=
  (s.modSlot i fun sl =>
    { sl with
      chan.inReset := true
      chan.cardHold := none
      chan.identity := none
      chan.hostWaiting := []
      outbound := { tags := [], deadline := none }
      store := sl.store.clear }).emptyHold i

/-- R40: entries are removed without answer, one at a time. -/
def State.discardLoop (i : SlotId) : List Entry → State → State
  | [], s => s
  | e :: rest, s => State.discardLoop i rest (s.freeEntry i e.tag)

/-- R40: the slot's list is emptied without answer. -/
def State.discardEntries (s : State) (i : SlotId) : State := s.discardLoop i (s.slot i).entries

/-- R17: the upstream path of ONLINE and SUSPECT: a WARM attempt whose reset pulse awaits the release. -/
def State.enterUpstream (s : State) (i : SlotId) : State :=
  s.drive i fun sl =>
    { sl.moveTo .resetting with
      ctl.reason := some .upstream
      ctl.attempts := 1
      ctl.resetKind := some .warm
      ctl.origin := some .upstream
      ctl.pulseTimer := .awaitingRelease }

/-- UPSTREAM_RESET (R17, R18, R40). -/
def State.upstreamReset (s : State) (i : SlotId) : State :=
  let s := (s.upstreamClear i).discardEntries i
  if (s.slot i).inService then s.enterUpstream i
  else if (s.slot i).ctl.state = .fencing then s.leaveFencing i
  else s.replayCleared i

/-- UPSTREAM_RELEASE: the value becomes RUNNING, and a reset pulse that awaits it starts (R17, R18). -/
def State.upstreamRelease (s : State) (i : SlotId) : State :=
  s.when (s.slot i).chan.inReset fun s =>
    s.modSlot i fun sl =>
      { sl with
        chan.inReset := false
        ctl.pulseTimer :=
          if sl.ctl.pulseTimer = .awaitingRelease then .running (s.afterMs sl.policy.resetPulse) else sl.ctl.pulseTimer }

/-- R131, R133, R136: IMG.DROP clears the image; in RESTORING the replay goes on with what is left. -/
def State.dropImage (s : State) (i : SlotId) : State :=
  (s.modSlot i fun sl => { sl with store := sl.store.clear }).replayCleared i

end Sys2Proof.Machine
end

