-- ==== Sys2Proof/Machine/Pins.lean ====
section
/-! DEFINITION. Chapter 9: the pin modes, presence, the rail scan and the over-current event; and the ways out that PWR.OFF (R113)
shares with a presence loss. -/

namespace Sys2Proof.Machine

/-! ### Pin modes -/

/-- R174, R177: the slot takes a pin mode; the outputs follow. R81: leaving LIVE suspends the decision timer of a stay in ISOLATED under
ASK, and the return starts it again in full. -/
def State.setPinMode (s : State) (i : SlotId) (m : PinMode) : State :=
  let s := s.drive i fun sl => { sl with pins.mode := m }
  s.when ((s.slot i).ctl.state = .isolated && (s.slot i).ctl.isoPolicy = some .ask) fun s =>
    s.modSlot i fun sl =>
      { sl with
        ctl.decisionTimer := if m = .live then .running (s.afterMs sl.policy.decisionTime) else .suspended }

/-- R177: the forced return to LIVE. The PWREN level is then the LIVE drive of the slot's state, even where the board held the
line on in FLOAT (R177, R165); R167's last paragraph has FLOAT leave a board-held PWREN on: the model's choice (log 39). -/
def State.forceLive (s : State) (i : SlotId) : State := if (s.slot i).pins.mode = .live then s else s.setPinMode i .live

/-- PWREN_CHANGE: the level the board gives the PWREN line; it is the line's level in FLOAT (R165; log 5). -/
def State.pwrenChange (s : State) (i : SlotId) (level : Bool) : State :=
  s.drive i fun sl => { sl with pins.boardPwren := level }

/-- ATTN_BLINK_TOGGLE: the line alternates every 500 ms while ATTN stays blink (R170). -/
def State.blinkToggle (s : State) (i : SlotId) : State :=
  s.when (s.due (s.slot i).pins.blinkTimer) fun s =>
    s.modSlot i fun sl =>
      { sl with pins.blinkOn := !sl.pins.blinkOn, pins.blinkTimer := some (s.after Config.blinkMicros) }

/-! ### Presence -/

/-- PRSNT_CHANGE: the debounce timer starts or is stopped (R171). -/
def State.prsntChange (s : State) (i : SlotId) (asserted : Bool) : State :=
  s.when ((s.slot i).pins.prsnt != asserted) fun s =>
    s.modSlot i fun sl =>
      { sl with
        pins.prsnt := asserted
        pins.startUp := false
        pins.debounce := if asserted = sl.pins.delivered then none else some (s.after Config.debounceMicros) }

/-- R110, R111: a presence insertion. -/
def State.insertion (s : State) (i : SlotId) : State :=
  let s := s.modSlot i fun sl => { sl with ctl.present := true }
  s.when ((s.slot i).ctl.state = .empty) fun s =>
    let s := s.modSlot i fun sl => { sl with ctl.reason := some .inserted }
    if (s.slot i).policy.autoPower && (s.slot i).pins.mode = .live then s.startAttempt i .cold .bringUp 0
    else s.enterOff i

/-- R83, R85: DISCHARGING with target OFF out of ISOLATED or QUARANTINED, with the reason recorded (R113; log 13). -/
def State.powerAway (s : State) (i : SlotId) (reason : Reason) : State :=
  (s.modSlot i fun sl => { sl with ctl.reason := some reason }).enterDischarging i .off

/-- R91, R96: PWR.OFF or a presence loss in a recovery state. With target OFF already there is nothing to abandon, and the recorded reason
stays: for PWR.OFF the model's reading (log 12), for a loss its choice (log 35). -/
def State.abandonAttempt (s : State) (i : SlotId) (reason : Reason) : State :=
  if (s.slot i).ctl.state = .discharging && (s.slot i).ctl.target = some .off then s else s.abandon i reason

/-- R112: a presence loss. In EMPTY, where R112 says it cannot arise, it only sets presence (log 1). -/
def State.loss (s : State) (i : SlotId) : State :=
  let s := s.modSlot i fun sl => { sl with ctl.present := false }
  match (s.slot i).ctl.state with
  | .empty => s
  | .off => s.enterEmpty i
  | .online => s.fence i .removed .off
  | .suspect => s.fence i .removed .off
  | .fencing => s.removedInFencing i
  | .isolated => s.powerAway i .removed
  | .quarantined => s.powerAway i .removed
  | _ => s.abandonAttempt i .removed

/-- R201: the timers started at the end of power-on reset are delivered in ascending slot order: none of a lower slot is due (log 24). -/
def State.startUpTurn (s : State) (i : SlotId) : Bool :=
  !(s.slot i).pins.startUp
    || Config.slotIds.all fun j => i ≤ j || !(s.slot j).pins.startUp || !s.due (s.slot j).pins.debounce

/-- PRESENCE_DEBOUNCE_EXPIRY: the level is delivered: a PRESENCE report, then the insertion or the loss (R171, R172). -/
def State.debounceExpiry (s : State) (i : SlotId) : State :=
  s.when (s.due (s.slot i).pins.debounce && s.startUpTurn i) fun s =>
    let asserted := (s.slot i).pins.prsnt
    let s := s.modSlot i fun sl =>
      { sl with pins.delivered := asserted, pins.debounce := none, pins.startUp := false }
    if asserted then (s.report .presence i (some .inserted) none).insertion i
    else (s.report .presence i (some .removed) none).loss i

/-! ### Over-current and the scan -/

/-- R167, step 3: what the slot controller does at an over-current event. -/
def State.overcurrentByState (s : State) (i : SlotId) : State :=
  match (s.slot i).ctl.state with
  | .online => s.fence i .overcurrent .recover
  | .suspect => s.fence i .overcurrent .recover
  | .fencing => s.overcurrentInFencing i
  | .isolated => s.drive i fun sl => { sl with ctl.powerCut := true }
  | .ramping => s.attemptFailure i .overcurrent
  | .resetting => s.attemptFailure i .overcurrent
  | .training => s.attemptFailure i .overcurrent
  | .restoring => s.attemptFailure i .overcurrent
  | _ => s

/-- R167: an over-current event: the report, the return to LIVE, the slot controller. -/
def State.overcurrent (s : State) (i : SlotId) (why : Reason) (milliamps : Nat) : State :=
  ((s.report .overcurrent i (some why) (some milliamps)).forceLive i).overcurrentByState i

/-- R166: the applicable limit in mA. -/
def Slot.currentLimit (sl : Slot) : Nat :=
  if sl.ctl.state = .ramping then min (2 * sl.policy.currentLimit) 20000 else sl.policy.currentLimit

/-- R166: a kept current result, in mA, is a sample when PWREN is on. -/
def State.currentSample (s : State) (i : SlotId) (milliamps : Nat) : State :=
  let sl := s.slot i
  s.when sl.pwren fun s =>
    if milliamps ≤ sl.currentLimit then s.modSlot i fun sl => { sl with rails.runCount := 0 }
    else if sl.rails.runCount = 0 then s.modSlot i fun sl => { sl with rails.runCount := 1 }
    else
      (s.modSlot i fun sl => { sl with rails.runCount := 0 }).overcurrent i
        (if sl.ctl.state = .ramping then .ramp else .limit) milliamps

/-- R164: the code of a quantity at a step: the quantity over the step, plus one half, rounded down, clamped to 0..4095. -/
def railCode (q : Quantity) (step : Nat) : Nat :=
  (min (max ((2 * q.num + step * (q.den + 1)) / (2 * step * (q.den + 1))) 0) 4095).toNat

/-- R164: the step of a channel in its unit, by the channel's place in its slot: 12 V, 3.3 V, current. -/
def railStep (place : Nat) : Nat :=
  match place with
  | 0 => 4
  | 1 => 1
  | _ => 5

/-- R163: a result is kept and handed on. -/
def State.keepResult (s : State) (i : SlotId) (place : Nat) (r : RailResult) : State :=
  match place with
  | 0 => (s.modSlot i fun sl => { sl with rails.v12 := some r }).dischargeCheck i
  | 1 => (s.modSlot i fun sl => { sl with rails.v33 := some r }).dischargeCheck i
  | _ => (s.modSlot i fun sl => { sl with rails.current := some r }).currentSample i (5 * r.code)

/-- R163: the next conversion begins. -/
def State.nextConversion (s : State) : State :=
  { s with
    monitor :=
      { channel := s.monitor.channel + 1, convEnd := some (s.after Config.conversionMicros), discard := false
        afterOff := true } }

/-- CONVERSION_END: the next conversion begins (log 15), and the result is kept and handed on, or discarded (R163 to R165). -/
def State.conversionEnd (s : State) (q : Quantity) : State :=
  s.when (s.due s.monitor.convEnd) fun s =>
    let m := s.monitor
    let place := m.channel.val % 3
    let s := s.nextConversion
    if m.discard then s
    else s.keepResult m.slot place { code := railCode q (railStep place), mark := true, afterOff := m.afterOff }

end Sys2Proof.Machine
end

