-- ==== Sys2Proof/Machine/Layouts.lean ====
section
/-! DEFINITION. Section 10.3: the codes and the byte layouts of frames, replies and report records. -/

namespace Sys2Proof.Machine

/-- The status codes. -/
def ReplyStatus.code : ReplyStatus → Byte
  | .ok => 0x00
  | .clamped => 0x01
  | .state => 0x02
  | .range => 0x03
  | .full => 0x04
  | .unknown => 0x05
  | .length => 0x06
  | .slot => 0x07

/-- The state codes. -/
def SlotState.code : SlotState → Byte
  | .empty => 0
  | .off => 1
  | .online => 2
  | .suspect => 3
  | .fencing => 4
  | .isolated => 5
  | .quarantined => 6
  | .discharging => 7
  | .powerWait => 8
  | .ramping => 9
  | .resetting => 10
  | .training => 11
  | .restoring => 12

/-- The report kinds. -/
def ReportKind.code : ReportKind → Nat
  | .state => 0
  | .hang => 1
  | .errant => 2
  | .overcurrent => 3
  | .attempt => 4
  | .restored => 5
  | .presence => 6
  | .protocol => 7

/-- The reason codes. -/
def Reason.code : Reason → Byte
  | .score => 0x01
  | .command => 0x02
  | .overcurrent => 0x03
  | .removed => 0x04
  | .link => 0x05
  | .calert => 0x06
  | .upstream => 0x07
  | .inserted => 0x08
  | .ordered => 0x09
  | .lapse => 0x0A
  | .exhausted => 0x0B
  | .dischargeTimeout => 0x0C
  | .budget => 0x0D
  | .rail => 0x0E
  | .trainingTimeout => 0x0F
  | .restoreFail => 0x10
  | .restoreTimeout => 0x11
  | .timeout => 0x20
  | .stray => 0x21
  | .malformed => 0x22
  | .errant => 0x23
  | .linkDown => 0x24
  | .decay => 0x25
  | .denied => 0x28
  | .outside => 0x29
  | .ramp => 0x2C
  | .limit => 0x2D
  | .tagCollision => 0x30
  | .cardTag => 0x31
  | .hostStray => 0x32

/-- A reason byte; 0x00 when there is none. -/
def reasonByte (r : Option Reason) : Byte := (r.map Reason.code).getD 0x00

/-- One bit of a flag byte. -/
def flag (b : Bool) (bit : Nat) : Nat := if b then 2 ^ bit else 0

/-- The low byte of a number. -/
def byteOf (n : Nat) : Byte := BitVec.ofNat 8 n

/-- A report record, 14 bytes. -/
def Report.bytes (r : Report) : List Byte :=
  [byteOf (r.slot.val + 8 * r.kind.code + flag r.partialRestore 6 + flag r.value.isSome 7)]
    ++ leBytes 4 r.stamp.toNat
    ++ [reasonByte r.reason, (r.states.map fun p => p.1.code).getD 0xFF, (r.states.map fun p => p.2.code).getD 0xFF]
    ++ leBytes 5 (r.value.getD 0)
    ++ [byteOf r.lost]

/-- The codes of the policy field. -/
def PolicyChoice.code : PolicyChoice → Byte
  | .auto => 0
  | .ask => 1
  | .hold => 2

/-- The codes of the lapse action. -/
def LapseAction.code : LapseAction → Byte
  | .recover => 0
  | .quarantine => 1

/-- The codes of the first reset kind. -/
def ResetKind.code : ResetKind → Byte
  | .warm => 0
  | .cold => 1

/-- The codes of the fill mode. -/
def FillMode.code : FillMode → Byte
  | .ones => 0
  | .abort => 1

/-- A policy record's 28 bytes as SLOT.GET returns them. -/
def Policy.bytes (p : Policy) : List Byte :=
  [p.policy.code, p.lapse.code]
    ++ leBytes 2 p.decisionTime
    ++ [p.firstKind.code, byteOf p.maxAttempts, byteOf p.quota]
    ++ leBytes 2 p.slotTimeout ++ leBytes 2 p.drain
    ++ [p.fill.code, byteOf p.linkGrace]
    ++ leBytes 2 p.resetPulse ++ leBytes 2 p.minOff ++ leBytes 2 p.dischargeTimeout ++ leBytes 2 p.ramp
    ++ leBytes 2 p.training ++ leBytes 2 p.currentLimit
    ++ [byteOf p.demand, byteOf (flag p.calertEnable 0), byteOf (flag p.autoPower 0)]

/-- SLOT.GET's byte 5, its bits in the order the section lists them (log 28). -/
def Slot.statusBits (sl : Slot) : Byte :=
  byteOf (flag sl.chan.hold.isSome 0 + flag sl.chan.cardHold.isSome 1 + flag sl.chan.linkUp 2 + flag sl.ctl.present 3
    + flag sl.chan.inReset 4 + flag sl.ctl.powerCut 5)

/-- The mode codes of PIN.MODE, which SLOT.GET returns too (log 28). -/
def PinMode.code : PinMode → Byte
  | .live => 0
  | .hold => 1
  | .float => 2

/-- SLOT.GET's 47 bytes (R187). -/
def Slot.getBytes (sl : Slot) : List Byte :=
  [sl.ctl.state.code, reasonByte sl.ctl.reason, byteOf sl.ctl.score, byteOf sl.ctl.attempts, byteOf sl.entries.length,
      sl.statusBits, byteOf sl.store.entries.length, byteOf (flag sl.store.incomplete 0), byteOf sl.store.replayed,
      byteOf sl.outbound.tags.length, sl.pins.mode.code]
    ++ leBytes 4 sl.chan.dropped ++ leBytes 4 sl.chan.absorbed ++ sl.policy.bytes

/-- ID's 17 bytes (R186): vendor 0x2C4E, part 0x2608, revision 0x01, hold-off, rate, the five error counts. -/
def Link.idBytes (l : Link) : List Byte :=
  leBytes 2 0x2C4E ++ leBytes 2 0x2608 ++ [0x01, byteOf l.holdOff, byteOf (flag l.fast 0)]
    ++ leBytes 2 l.counts.gap ++ leBytes 2 l.counts.framing ++ leBytes 2 l.counts.length ++ leBytes 2 l.counts.check
    ++ leBytes 2 l.counts.overrun

/-- The reported value of a channel, code times step; 0 with no result yet (R164, R168). -/
def reported (r : Option RailResult) (step : Nat) : Nat := (r.map fun x => step * x.code).getD 0

/-- The qualifying mark of a channel; clear with no result yet (R168). -/
def marked (r : Option RailResult) : Bool := r.any fun x => x.mark

/-- RAIL.READ's 7 bytes (R168). -/
def Rails.bytes (r : Rails) : List Byte :=
  leBytes 2 (reported r.v12 4) ++ leBytes 2 (reported r.v33 1) ++ leBytes 2 (reported r.current 5)
    ++ [byteOf (flag (marked r.v12) 0 + flag (marked r.v33) 1 + flag (marked r.current) 2)]

/-- The levels PIN.SAMPLE finds on a slot's lines (R178); in FLOAT the board's, its CLKEN, CRST and ATTN given. -/
def Slot.sampleByte (sl : Slot) (boardClken boardCrst boardAttn : Bool) : Byte :=
  let d : Drive := sl.drive.getD
    { pwren := sl.pins.boardPwren, clken := boardClken, crst := boardCrst, attn := if boardAttn then .on else .off }
  let attn := match d.attn with
    | .off => false
    | .on => true
    | .blink => sl.pins.blinkOn
  byteOf (flag d.pwren 0 + flag d.clken 1 + flag d.crst 2 + flag attn 3 + flag sl.pins.prsnt 4 + flag sl.pins.calert 5)

/-- IMG.READ's count and mark, and the entry's 7 bytes (R135). -/
def ImageStore.countBytes (st : ImageStore) : List Byte :=
  [byteOf st.entries.length, byteOf (flag st.incomplete 0)]

/-- The 7 bytes of an image entry (R135). -/
def ImgEntry.bytes (e : ImgEntry) : List Byte :=
  leBytes 2 e.offset.toNat ++ leBytes 4 e.value.toNat ++ [byteOf e.mask.toNat]

/-- The sum of the bytes of a frame after its sync byte (R180). -/
def byteSum (l : List Byte) : Byte := l.foldl (fun a b => a + b) 0

/-- A frame around a payload: sync, length, payload, check (section 10.3). -/
def frameOf (payload : List Byte) : List Byte :=
  let n := byteOf payload.length
  [0xA5, n] ++ payload ++ [0 - (n + byteSum payload)]

end Sys2Proof.Machine
end

