-- ==== Sys2Proof/Machine/Requests.lean ====
section
/-! DEFINITION. The requests of the management link (sections 10.4 to 10.8): what each does at its reply point, its status and data. -/

namespace Sys2Proof.Machine

/-- What a request leaves: the part after its effects, the status, the data after the flags byte, and whether a control reset follows the
reply (R194). -/
structure Answer where
  after : State
  status : ReplyStatus
  data : List Byte
  partReset : Bool
  deriving DecidableEq, Repr

/-- A reply without data and with no effect. -/
def State.refuse (s : State) (status : ReplyStatus) : Answer := { after := s, status := status, data := [], partReset := false }

/-- A request carried out, with a status and no data. -/
def State.done (s : State) (status : ReplyStatus) : Answer := { after := s, status := status, data := [], partReset := false }

/-- A request answered OK with data. -/
def State.tell (s : State) (data : List Byte) : Answer := { after := s, status := .ok, data := data, partReset := false }

/-- R185, check 3, for a slot request. -/
def State.forSlot (s : State) (sb : Byte) (f : SlotId → Answer) : Answer :=
  if h : sb.toNat < 8 then f ⟨sb.toNat, h⟩ else s.refuse .slot

/-- R185, check 3, for a part-wide request. -/
def State.forPart (s : State) (sb : Byte) (a : Answer) : Answer := if sb = 0xFF then a else s.refuse .slot

/-! ### Reading -/

/-- ID (R186). -/
def State.doId (s : State) (holdOff : Option Byte) : Answer :=
  let s := match holdOff with
    | some h => { s with link.holdOff := h.toNat }
    | none => s
  s.tell s.link.idBytes

/-- SLOT.GET (R187). -/
def State.doSlotGet (s : State) (i : SlotId) : Answer := s.tell (s.slot i).getBytes

/-- RAIL.READ (R168). -/
def State.doRailRead (s : State) (i : SlotId) : Answer := s.tell (s.slot i).rails.bytes

/-- PIN.SAMPLE (R178). In FLOAT the board's CLKEN, CRST and ATTN are free values, one for each look (log 5). -/
def State.doPinSample (s : State) (i : SlotId) : Answer :=
  let n := s.freeCount
  let s := if (s.slot i).pins.mode = .float then { s with freeCount := n + 3 } else s
  s.tell [(s.slot i).sampleByte (Config.boardLine n) (Config.boardLine (n + 1)) (Config.boardLine (n + 2))]

/-- IMG.READ (R135). -/
def State.doImgRead (s : State) (i : SlotId) (index : Byte) : Answer :=
  let st := (s.slot i).store
  match st.entries[index.toNat]? with
  | some e => s.tell (st.countBytes ++ e.bytes)
  | none => { after := s, status := .range, data := st.countBytes, partReset := false }

/-- REPORT.TAKE (R193). -/
def State.doReportTake (s : State) : Answer :=
  let taken := s.reports.records.take 4
  { after := { s with reports.records := s.reports.records.drop 4 }, status := .ok
    data := byteOf taken.length :: taken.flatMap Report.bytes, partReset := false }

/-! ### SLOT.SET -/

/-- A numeric field taken as the nearer end of its range (R189). -/
def clamp (low high n : Nat) : Nat := min (max n low) high

/-- The codes of the policy field (section 10.3). -/
def PolicyChoice.ofCode (b : Byte) : Option PolicyChoice :=
  match b.toNat with
  | 0 => some .auto
  | 1 => some .ask
  | 2 => some .hold
  | _ => none

/-- The codes of the lapse action (section 10.3). -/
def LapseAction.ofCode (b : Byte) : Option LapseAction :=
  match b.toNat with
  | 0 => some .recover
  | 1 => some .quarantine
  | _ => none

/-- The codes of the first reset kind (section 10.3). -/
def ResetKind.ofCode (b : Byte) : Option ResetKind :=
  match b.toNat with
  | 0 => some .warm
  | 1 => some .cold
  | _ => none

/-- The codes of the fill mode (section 10.3). -/
def FillMode.ofCode (b : Byte) : Option FillMode :=
  match b.toNat with
  | 0 => some .ones
  | 1 => some .abort
  | _ => none

/-- The codes of an on or off field (section 10.3). -/
def switchOf (b : Byte) : Option Bool :=
  match b.toNat with
  | 0 => some false
  | 1 => some true
  | _ => none

/-- R189, check 1: the enumerations; none where one is out of range. The numbers are as sent. -/
def readPolicy (r : RawPolicy) : Option Policy := do
  let policy ← PolicyChoice.ofCode r.policy
  let lapse ← LapseAction.ofCode r.lapse
  let firstKind ← ResetKind.ofCode r.firstKind
  let fill ← FillMode.ofCode r.fill
  let calertEnable ← switchOf r.calertEnable
  let autoPower ← switchOf r.autoPower
  pure
    { policy := policy, lapse := lapse, decisionTime := r.decisionTime.toNat, firstKind := firstKind
      maxAttempts := r.maxAttempts.toNat, quota := r.quota.toNat, slotTimeout := r.slotTimeout.toNat
      drain := r.drain.toNat, fill := fill, linkGrace := r.linkGrace.toNat, resetPulse := r.resetPulse.toNat
      minOff := r.minOff.toNat, dischargeTimeout := r.dischargeTimeout.toNat, ramp := r.ramp.toNat
      training := r.training.toNat, currentLimit := r.currentLimit.toNat, demand := r.demand.toNat
      calertEnable := calertEnable, autoPower := autoPower }

/-- R189, check 2: every number inside its range; max attempts then raised to the present attempt count (R87). -/
def Policy.clamped (p : Policy) (attempts : Nat) : Policy :=
  { p with
    decisionTime := clamp 1 60000 p.decisionTime
    maxAttempts := max (clamp 1 4 p.maxAttempts) attempts
    quota := clamp 1 64 p.quota
    slotTimeout := clamp 100 50000 p.slotTimeout
    drain := clamp 0 10000 p.drain
    linkGrace := clamp 1 100 p.linkGrace
    resetPulse := clamp 1 1000 p.resetPulse
    minOff := clamp 10 10000 p.minOff
    dischargeTimeout := clamp 100 30000 p.dischargeTimeout
    ramp := clamp 1 1000 p.ramp
    training := clamp 10 10000 p.training
    currentLimit := clamp 500 20000 p.currentLimit
    demand := clamp 1 255 p.demand }

/-- SLOT.SET (R189); a quota that rose re-offers a request waiting for quota (R22). -/
def State.doSlotSet (s : State) (i : SlotId) (r : RawPolicy) : Answer :=
  match readPolicy r with
  | none => s.refuse .range
  | some sent =>
    let old := (s.slot i).policy
    let new := sent.clamped (s.slot i).ctl.attempts
    let s := s.modSlot i fun sl => { sl with policy := new }
    (if old.quota < new.quota then s.quotaOffer i else s).done (if new = sent then .ok else .clamped)

/-! ### Commands to a slot -/

/-- FENCE (R58). -/
def State.doFence (s : State) (i : SlotId) : Answer :=
  if (s.slot i).inService then (s.fence i .command .recover).done .ok else s.refuse .state

/-- R82: the kind a RECOVER names: WARM 0, COLD 1, DEFAULT 2. -/
def Slot.namedKind (sl : Slot) (kind : Byte) : ResetKind :=
  match kind.toNat with
  | 0 => .warm
  | 1 => .cold
  | _ => sl.policy.firstKind

/-- RECOVER (R82, R85, R111, R190). -/
def State.doRecover (s : State) (i : SlotId) (kind : Byte) : Answer :=
  let sl := s.slot i
  if 2 < kind.toNat then s.refuse .range
  else if sl.pins.mode ≠ .live then s.refuse .state
  else if sl.ctl.state = .isolated then
    (s.startAttempt i (sl.attemptKind (sl.namedKind kind)) .recovery 0).done .ok
  else if sl.ctl.state = .quarantined && sl.ctl.present then (s.startAttempt i .cold .recovery 0).done .ok
  else s.refuse .state

/-- QUAR (R82). -/
def State.doQuar (s : State) (i : SlotId) : Answer :=
  if (s.slot i).ctl.state = .isolated then (s.enterQuarantined i .ordered).done .ok else s.refuse .state

/-- PWR.ON (R108). -/
def State.doPwrOn (s : State) (i : SlotId) : Answer :=
  if (s.slot i).ctl.state = .off && (s.slot i).pins.mode = .live then
    ((s.modSlot i fun sl => { sl with ctl.reason := some .command }).startAttempt i .cold .bringUp 0).done .ok
  else s.refuse .state

/-- PWR.OFF (R113). In EMPTY and OFF, and in DISCHARGING with target OFF, nothing changes (log 12). -/
def State.doPwrOff (s : State) (i : SlotId) : Answer :=
  if (s.slot i).pins.mode ≠ .live then s.refuse .state
  else match (s.slot i).ctl.state with
    | .empty => s.done .ok
    | .off => s.done .ok
    | .online => (s.fence i .command .off).done .ok
    | .suspect => (s.fence i .command .off).done .ok
    | .fencing => s.refuse .state
    | .isolated => (s.powerAway i .command).done .ok
    | .quarantined =>
      let s := s.modSlot i fun sl => { sl with ctl.reason := some .command }
      (if (s.slot i).ctl.present then s.enterOff i else s.enterEmpty i).done .ok
    | _ => (s.abandonAttempt i .command).done .ok

/-- IMG.PUT is accepted in OFF, ISOLATED and QUARANTINED (R134). -/
def SlotState.takesImage : SlotState → Bool
  | .off => true
  | .isolated => true
  | .quarantined => true
  | _ => false

/-- IMG.PUT (R134): state, fields, room. -/
def State.doImgPut (s : State) (i : SlotId) (offset : BitVec 16) (value : Dword) (mask : Byte) : Answer :=
  let sl := s.slot i
  let o : Offset := offset.setWidth 10
  let m : ByteMask := mask.setWidth 4
  if !sl.ctl.state.takesImage then s.refuse .state
  else if offset = 0 || 1023 < offset.toNat || mask = 0 || 15 < mask.toNat then s.refuse .range
  else if sl.store.holds o then
    (s.modSlot i fun sl => { sl with store := sl.store.mergeAt o value m }).done .ok
  else if sl.store.hasRoom then
    (s.modSlot i fun sl => { sl with store := sl.store.append o value m }).done .ok
  else s.refuse .full

/-- IMG.DROP (R136). -/
def State.doImgDrop (s : State) (i : SlotId) : Answer := (s.dropImage i).done .ok

/-- The mode codes (section 10.3). -/
def PinMode.ofCode (b : Byte) : Option PinMode :=
  match b.toNat with
  | 0 => some .live
  | 1 => some .hold
  | 2 => some .float
  | _ => none

/-- R174: the states in which a mode is accepted. -/
def SlotState.takesMode (st : SlotState) (m : PinMode) : Bool :=
  match m with
  | .live => true
  | .hold => st == .empty || st == .off || st == .isolated || st == .quarantined
  | .float => st == .empty || st == .off || st == .quarantined

/-- PIN.MODE (R174): range before state; a mode the slot already has changes nothing. -/
def State.doPinMode (s : State) (i : SlotId) (mode : Byte) : Answer :=
  match PinMode.ofCode mode with
  | none => s.refuse .range
  | some m =>
    if (s.slot i).pins.mode = m then s.done .ok
    else if (s.slot i).ctl.state.takesMode m then (s.setPinMode i m).done .ok
    else s.refuse .state

/-- The codes of ATTN (section 10.3). -/
def Attn.ofCode (b : Byte) : Option Attn :=
  match b.toNat with
  | 0 => some .off
  | 1 => some .on
  | 2 => some .blink
  | _ => none

/-- R175: the four levels of PIN.LOAD; none where a code is out of range. -/
def readLevels (pwren clken crst attn : Byte) : Option Drive := do
  let p ← switchOf pwren
  let k ← switchOf clken
  let c ← switchOf crst
  let a ← Attn.ofCode attn
  pure { pwren := p, clken := k, crst := c, attn := a }

/-- PIN.LOAD (R175): in HOLD the outputs follow at once. -/
def State.doPinLoad (s : State) (i : SlotId) (pwren clken crst attn : Byte) : Answer :=
  match readLevels pwren clken crst attn with
  | none => s.refuse .range
  | some d => (s.drive i fun sl => { sl with pins.held := d }).done .ok

/-! ### Windows, deny ranges, filter, budget, scorer -/

/-- R158, R159: a pair of pages within 0..2^36 - 1, base not above limit. -/
def pageSpan (p : BitVec 40 × BitVec 40) : Option Span :=
  if p.1.toNat < 2 ^ 36 ∧ p.2.toNat < 2 ^ 36 ∧ p.1.toNat ≤ p.2.toNat then some { base := p.1.toNat, limit := p.2.toNat }
  else none

/-- R116: a pair of offsets within 0..1023, base not above limit. -/
def offsetSpan (p : BitVec 16 × BitVec 16) : Option Span :=
  if p.1.toNat ≤ 1023 ∧ p.2.toNat ≤ 1023 ∧ p.1.toNat ≤ p.2.toNat then some { base := p.1.toNat, limit := p.2.toNat }
  else none

/-- Every pair of a list read, or none if one is refused. -/
def readSpans {α : Type} (f : α → Option Span) : List α → Option (List Span)
  | [] => some []
  | p :: rest =>
    match f p, readSpans f rest with
    | some x, some xs => some (x :: xs)
    | _, _ => none

/-- Places 0 to count - 1 take the pairs in order, and the others become undefined (R158, R159). -/
def placed (n : Nat) (l : List Span) : Vector (Option Span) n := Vector.ofFn fun k => l[k.val]?

/-- The spans of a request with at most `cap` of them, or none where the count or a pair is refused (R116, R158, R159). -/
def checkedSpans {α : Type} (f : α → Option Span) (cap : Nat) (l : List α) : Option (List Span) :=
  if cap < l.length then none else readSpans f l

/-- WIN.SET (R158). -/
def State.doWinSet (s : State) (i : SlotId) (pairs : List (BitVec 40 × BitVec 40)) : Answer :=
  match checkedSpans pageSpan 4 pairs with
  | none => s.refuse .range
  | some l => (s.modSlot i fun sl => { sl with permit.windows := placed 4 l }).done .ok

/-- DENY.SET (R159). -/
def State.doDenySet (s : State) (pairs : List (BitVec 40 × BitVec 40)) : Answer :=
  match checkedSpans pageSpan 2 pairs with
  | none => s.refuse .range
  | some l => ({ s with deny := placed 2 l } : State).done .ok

/-- FILTER.SET (R116). -/
def State.doFilterSet (s : State) (ranges : List (BitVec 16 × BitVec 16)) : Answer :=
  match checkedSpans offsetSpan 8 ranges with
  | none => s.refuse .range
  | some l => ({ s with filter := l } : State).done .ok

/-- BUDGET.SET: 0 is taken as 1; a grant check follows (R138). -/
def State.doBudgetSet (s : State) (budget : Byte) : Answer :=
  (({ s with arbiter.budget := clamp 1 255 budget.toNat } : State).grantCheck).done
    (if budget = 0 then .clamped else .ok)

/-- SCORE.SET (R53). The decay epoch timer in progress is not moved (R48). -/
def State.doScoreSet (s : State) (p : RawScore) : Answer :=
  let epoch := clamp 1 1000 p.decayEpoch.toNat
  if 1 ≤ p.warn.toNat ∧ p.warn.toNat < p.fence.toNat then
    ({ s with
        scorer :=
          { timeout := p.timeout.toNat, stray := p.stray.toNat, malformed := p.malformed.toNat
            errant := p.errant.toNat, linkDown := p.linkDown.toNat, warn := p.warn.toNat, fence := p.fence.toNat
            decayEpoch := epoch, decayTimer := s.scorer.decayTimer } } : State).done
      (if epoch = p.decayEpoch.toNat then .ok else .clamped)
  else s.refuse .range

/-- PART.RESET: nothing changes at the reply point; the control reset follows the reply (R194). -/
def State.doPartReset (s : State) : Answer := { after := s, status := .ok, data := [], partReset := true }

/-- R185, checks 3 and 4: a request with its slot byte, carried out. -/
def State.perform (s : State) (sb : Byte) : BmcRequest → Answer
  | .id h => s.forPart sb (s.doId h)
  | .slotGet => s.forSlot sb s.doSlotGet
  | .slotSet r => s.forSlot sb fun i => s.doSlotSet i r
  | .fence => s.forSlot sb s.doFence
  | .recover k => s.forSlot sb fun i => s.doRecover i k
  | .quar => s.forSlot sb s.doQuar
  | .pwrOn => s.forSlot sb s.doPwrOn
  | .pwrOff => s.forSlot sb s.doPwrOff
  | .winSet ps => s.forSlot sb fun i => s.doWinSet i ps
  | .denySet ps => s.forPart sb (s.doDenySet ps)
  | .budgetSet b => s.forPart sb (s.doBudgetSet b)
  | .scoreSet p => s.forPart sb (s.doScoreSet p)
  | .imgRead x => s.forSlot sb fun i => s.doImgRead i x
  | .imgPut o v m => s.forSlot sb fun i => s.doImgPut i o v m
  | .imgDrop => s.forSlot sb s.doImgDrop
  | .filterSet rs => s.forPart sb (s.doFilterSet rs)
  | .pinMode m => s.forSlot sb fun i => s.doPinMode i m
  | .pinLoad a b c d => s.forSlot sb fun i => s.doPinLoad i a b c d
  | .pinSample => s.forSlot sb s.doPinSample
  | .railRead => s.forSlot sb s.doRailRead
  | .reportTake => s.forPart sb s.doReportTake
  | .partReset => s.forPart sb s.doPartReset

end Sys2Proof.Machine
end

