-- ==== Sys2Proof/Machine/Line.lean ====
section
/-! DEFINITION. The management line (sections 10.1 and 10.2): frame assembly, one request at a time, replies; and the control reset
(R202), which PART.RESET's reply ends in. -/

namespace Sys2Proof.Machine

/-! ### Control reset -/

/-- R179: what a reset leaves of the record of frames sent: a reply in transmission is cut off. -/
def Link.cutOff (l : Link) : List SentFrame :=
  match l.inProcess with
  | some p => if p.started then l.sent ++ [{ bytes := frameOf p.reply, whole := false }] else l.sent
  | none => l.sent

/-- R202: the link and the report queue are cleared, the scan begins again, and the run counts become 0. -/
def State.controlReset (s : State) : State :=
  { s with
    slots := s.slots.map fun sl => { sl with rails.runCount := 0 }
    link := { Link.powerOn s.link.fast with sent := s.link.cutOff }
    reports := ReportQueue.powerOn
    monitor :=
      { channel := 0, convEnd := some (s.after Config.conversionMicros), discard := false, afterOff := true } }

/-! ### Replies -/

/-- R185: the flags byte of a reply: OVERRUN, bit 0, and REPORTS_WAITING, bit 1 (log 28). -/
def State.replyFlags (s : State) : Byte := byteOf (flag s.link.overrun 0 + flag s.alert 1)

/-- R184, R185: the reply is composed. It begins at the latest of `ready` (the reply point and the end of the previous reply) and the
end of the request's check byte plus the hold-off. -/
def State.reply (a : Answer) (code : Byte) (frameEnd ready : Nat) : State :=
  let s := a.after
  { s with
    link.overrun := false
    link.inProcess := some
      { reply := [code + 0x80, a.status.code, s.replyFlags] ++ a.data
        partReset := a.partReset
        started := false
        startAt := max ready (frameEnd + s.link.holdOff * Config.bitUnits s.link.fast)
        endAt := 0 } }

/-- R182, R185: a request whose kind and length are right is taken. -/
def State.takeRequest (s : State) (sb : Byte) (r : BmcRequest) (frameEnd ready : Nat) : State :=
  State.reply (s.perform sb r) r.code frameEnd ready

/-- R182, R185: a complete frame's payload is taken. -/
def State.takeFrame (s : State) (payload : List Byte) (frameEnd ready : Nat) : State :=
  match parseRequest payload with
  | .unknown => State.reply (s.refuse .unknown) (payload.headD 0) frameEnd ready
  | .badLength => State.reply (s.refuse .length) (payload.headD 0) frameEnd ready
  | .request sb r => s.takeRequest sb r frameEnd ready

/-- A link error count one higher, up to its stop (R181). -/
def countUp (n : Nat) : Nat := min (n + 1) Config.linkCountMax

/-- R182, R183: a complete frame on a busy link waits, or is an overrun. One that completes right after the waiting request was taken finds
the place free and waits, as R182 says; that R183 has the overrun flag then set for the reply that follows is not modelled, and taking
R182 here is the model's choice (log 38). -/
def State.frameBusy (s : State) (payload : List Byte) : State :=
  if s.link.waiting.isNone then { s with link.waiting := some { payload := payload, frameEnd := s.lineNow } }
  else { s with link.overrun := true, link.counts.overrun := countUp s.link.counts.overrun }

/-- R182: a frame is complete. -/
def State.frameComplete (s : State) (payload : List Byte) : State :=
  if s.link.inProcess.isNone then s.takeFrame payload s.lineNow s.lineNow else s.frameBusy payload

/-- A request as a command: its complete frame arrives (log 18). While CRESET# is held MRX is ignored (R202). -/
def State.submit (s : State) (sb : Byte) (r : BmcRequest) : State :=
  if s.cresetHeld then s
  else if s.link.inProcess.isNone then s.takeRequest sb r s.lineNow s.lineNow
  else s.frameBusy (encodeRequest sb r)

/-- The time on the line of a whole frame around a payload, 10 bit times a character (R179). -/
def frameUnits (fast : Bool) (payload : List Byte) : Nat := (payload.length + 3) * (10 * Config.bitUnits fast)

/-- REPLY_START: the first character of the reply begins (R184). -/
def State.replyStart (s : State) : State :=
  match s.link.inProcess with
  | none => s
  | some p =>
    s.when (!p.started && p.startAt ≤ s.lineNow) fun s =>
      { s with
        link.inProcess := some { p with started := true, endAt := p.startAt + frameUnits s.link.fast p.reply } }

/-- REPLY_SENT: the last character of the reply has been sent; then the control reset that PART.RESET asked for (R194), or the waiting
request (R182). The place of the waiting request is free from then on; a frame that completes at that moment waits (log 38). -/
def State.replySent (s : State) : State :=
  match s.link.inProcess with
  | none => s
  | some p =>
    s.when (p.started && p.endAt ≤ s.lineNow) fun s =>
      let s := { s with
        link.inProcess := none
        link.sent := s.link.sent ++ [SentFrame.mk (frameOf p.reply) true] }
      if p.partReset then s.controlReset
      else match s.link.waiting with
        | none => s
        | some w => ({ s with link.waiting := none } : State).takeFrame w.payload w.frameEnd p.endAt

/-! ### Frame assembly -/

/-- The next character is read in HUNT (R180). R180 stops the gap timer at a character taken in CHECK; that a discard at a bad length byte or
by a low stop bit stops it too, so that no GAP count follows in HUNT, is the model's choice (log 37). -/
def Link.hunt (l : Link) : Link := { l with phase := .hunt, frameLen := 0, payload := [], gapTimer := none }

/-- R181: a character with its stop bit low. -/
def State.badStop (s : State) : State :=
  { s with link := { s.link.hunt with counts.framing := countUp s.link.counts.framing } }

/-- R180: the check test adds the length byte, the payload and the check byte. -/
def checkGood (l : Link) (value : Byte) : Bool := byteOf l.frameLen + byteSum l.payload + value == 0

/-- R180: a character with a good stop bit. -/
def State.goodCharacter (s : State) (value : Byte) : State :=
  let gap : Timer := some (s.after Config.gapMicros)
  match s.link.phase with
  | .hunt => if value = 0xA5 then { s with link.phase := .length, link.gapTimer := gap } else s
  | .length =>
    if 1 ≤ value.toNat && value.toNat ≤ 60 then
      { s with link.phase := .payload, link.frameLen := value.toNat, link.payload := [], link.gapTimer := gap }
    else { s with link := { s.link.hunt with counts.length := countUp s.link.counts.length } }
  | .payload =>
    let payload := s.link.payload ++ [value]
    { s with
      link.payload := payload
      link.phase := if s.link.frameLen ≤ payload.length then .check else .payload
      link.gapTimer := gap }
  | .check =>
    if checkGood s.link value then ({ s with link := s.link.hunt } : State).frameComplete s.link.payload
    else { s with link := { s.link.hunt with counts.check := countUp s.link.counts.check } }

/-- CHARACTER_RECEIVED (R180, R181); MRX is ignored while CRESET# is held (R202). -/
def State.characterReceived (s : State) (value : Byte) (stopBit : Bool) : State :=
  s.when (!s.cresetHeld) fun s => if stopBit then s.goodCharacter value else s.badStop

/-- GAP_TIMER_EXPIRY (R181). -/
def State.gapExpiry (s : State) : State :=
  s.when (s.due s.link.gapTimer) fun s =>
    { s with link := { s.link.hunt with counts.gap := countUp s.link.counts.gap } }

end Sys2Proof.Machine
end

