-- ==== Sys2Proof/WellFormed.lean ====
section
/-! DEFINITION. The ranges the spec gives a command's operands (R1, R2, R180): what the link layer and the line can deliver. -/

namespace Sys2Proof

/-- R1: a length is 1..1024 dwords and a byte mask is 1..15. -/
def TxKind.wf : TxKind → Bool
  | .memRead _ len => 1 ≤ len && len ≤ 1024
  | .memWrite _ data => 1 ≤ data.length && data.length ≤ 1024
  | .ioRead _ => true
  | .ioWrite _ mask _ => mask != 0
  | .cfgRead _ => true
  | .cfgWrite _ mask _ => mask != 0
  | .message => true

/-- R1: every field of the request inside its range. -/
def Request.wf (r : Request) : Bool := r.kind.wf

/-- R2: at most 1024 dwords, and a completion with status other than SUCCESS carries no data and has its final flag set. -/
def Completion.wf (c : Completion) : Bool :=
  c.data.length ≤ 1024 && (c.status == .success || (c.data.isEmpty && c.final))

/-- R180: a payload is at most 60 bytes, which bounds the lists of a request with a count field (section 10.3). -/
def BmcRequest.wf : BmcRequest → Bool
  | .winSet pairs => pairs.length ≤ 5
  | .denySet pairs => pairs.length ≤ 5
  | .filterSet ranges => ranges.length ≤ 14
  | _ => true

/-- A command whose operands lie inside the ranges the spec gives them. -/
def Instr.wf : Instr → Bool
  | .hostRequest _ r => r.wf
  | .cardRequest _ r => r.wf
  | .cardCompletion _ _ c => c.wf
  | .hostCompletion _ c => c.wf
  | .winSet _ pairs => (BmcRequest.winSet pairs).wf
  | .denySet _ pairs => (BmcRequest.denySet pairs).wf
  | .filterSet _ ranges => (BmcRequest.filterSet ranges).wf
  | _ => true

end Sys2Proof
end

