-- ==== Sys2Proof/Machine/Commands.lean ====
section
/-! DEFINITION. The meanings of the commands that are requests of the management link, each standing for its complete frame (log 18). -/

namespace Sys2Proof.Machine

/-- ID (R186). -/
def execId (sb : Byte) (holdOff : Option Byte) (s : State) : Host.Outcome State Fault Refusal :=
  .next (s.running fun s => s.submit sb (.id holdOff))

/-- SLOT_GET (R187). -/
def execSlotGet (sb : Byte) (s : State) : Host.Outcome State Fault Refusal :=
  .next (s.running fun s => s.submit sb .slotGet)

/-- SLOT_SET (R189). -/
def execSlotSet (sb : Byte) (record : RawPolicy) (s : State) : Host.Outcome State Fault Refusal :=
  .next (s.running fun s => s.submit sb (.slotSet record))

/-- FENCE (R58). -/
def execFence (sb : Byte) (s : State) : Host.Outcome State Fault Refusal :=
  .next (s.running fun s => s.submit sb .fence)

/-- RECOVER (R82, R85). -/
def execRecover (sb : Byte) (kind : Byte) (s : State) : Host.Outcome State Fault Refusal :=
  .next (s.running fun s => s.submit sb (.recover kind))

/-- QUAR (R82). -/
def execQuar (sb : Byte) (s : State) : Host.Outcome State Fault Refusal :=
  .next (s.running fun s => s.submit sb .quar)

/-- PWR_ON (R108). -/
def execPwrOn (sb : Byte) (s : State) : Host.Outcome State Fault Refusal :=
  .next (s.running fun s => s.submit sb .pwrOn)

/-- PWR_OFF (R113). -/
def execPwrOff (sb : Byte) (s : State) : Host.Outcome State Fault Refusal :=
  .next (s.running fun s => s.submit sb .pwrOff)

/-- WIN_SET (R158). -/
def execWinSet (sb : Byte) (pairs : List (BitVec 40 × BitVec 40)) (s : State) : Host.Outcome State Fault Refusal :=
  if (BmcRequest.winSet pairs).wf then .next (s.running fun s => s.submit sb (.winSet pairs)) else .fault .illFormedCommand

/-- DENY_SET (R159). -/
def execDenySet (sb : Byte) (pairs : List (BitVec 40 × BitVec 40)) (s : State) : Host.Outcome State Fault Refusal :=
  if (BmcRequest.denySet pairs).wf then .next (s.running fun s => s.submit sb (.denySet pairs)) else .fault .illFormedCommand

/-- BUDGET_SET (R138). -/
def execBudgetSet (sb : Byte) (budget : Byte) (s : State) : Host.Outcome State Fault Refusal :=
  .next (s.running fun s => s.submit sb (.budgetSet budget))

/-- SCORE_SET (R53). -/
def execScoreSet (sb : Byte) (params : RawScore) (s : State) : Host.Outcome State Fault Refusal :=
  .next (s.running fun s => s.submit sb (.scoreSet params))

/-- IMG_READ (R135). -/
def execImgRead (sb : Byte) (index : Byte) (s : State) : Host.Outcome State Fault Refusal :=
  .next (s.running fun s => s.submit sb (.imgRead index))

/-- IMG_PUT (R134). -/
def execImgPut (sb : Byte) (offset : BitVec 16) (value : Dword) (mask : Byte) (s : State) : Host.Outcome State Fault Refusal :=
  .next (s.running fun s => s.submit sb (.imgPut offset value mask))

/-- IMG_DROP (R136). -/
def execImgDrop (sb : Byte) (s : State) : Host.Outcome State Fault Refusal :=
  .next (s.running fun s => s.submit sb .imgDrop)

/-- FILTER_SET (R116). -/
def execFilterSet (sb : Byte) (ranges : List (BitVec 16 × BitVec 16)) (s : State) : Host.Outcome State Fault Refusal :=
  if (BmcRequest.filterSet ranges).wf then .next (s.running fun s => s.submit sb (.filterSet ranges)) else .fault .illFormedCommand

/-- PIN_MODE (R174). -/
def execPinMode (sb : Byte) (mode : Byte) (s : State) : Host.Outcome State Fault Refusal :=
  .next (s.running fun s => s.submit sb (.pinMode mode))

/-- PIN_LOAD (R175). -/
def execPinLoad (sb : Byte) (pwren : Byte) (clken : Byte) (crst : Byte) (attn : Byte) (s : State) : Host.Outcome State Fault Refusal :=
  .next (s.running fun s => s.submit sb (.pinLoad pwren clken crst attn))

/-- PIN_SAMPLE (R178). -/
def execPinSample (sb : Byte) (s : State) : Host.Outcome State Fault Refusal :=
  .next (s.running fun s => s.submit sb .pinSample)

/-- RAIL_READ (R168). -/
def execRailRead (sb : Byte) (s : State) : Host.Outcome State Fault Refusal :=
  .next (s.running fun s => s.submit sb .railRead)

/-- REPORT_TAKE (R193). -/
def execReportTake (sb : Byte) (s : State) : Host.Outcome State Fault Refusal :=
  .next (s.running fun s => s.submit sb .reportTake)

/-- PART_RESET (R194). -/
def execPartReset (sb : Byte) (s : State) : Host.Outcome State Fault Refusal :=
  .next (s.running fun s => s.submit sb .partReset)

end Sys2Proof.Machine
end

