-- ==== Sys2Proof/Machine/Resets.lean ====
section
/-! DEFINITION. Power-on reset and its end (R201), CRESET# (R202), and the input pins while POR# is held (log 21). -/

namespace Sys2Proof.Machine

/-- A slot taken to its power-on values; its input pins keep their levels, and what it has sent stays on record (logs 9, 21). -/
def Slot.toPowerOn (sl : Slot) : Slot :=
  { Slot.powerOn sl.pins.prsnt sl.pins.calert sl.pins.boardPwren with
    chan.hostOut := sl.chan.hostOut
    chan.cardOut := sl.chan.cardOut }

/-- POWER_ON_RESET: POR# is asserted; every block takes its power-on values and is held there (R201). -/
def State.powerOnReset (s : State) : State :=
  { slots := s.slots.map Slot.toPowerOn
    poolWait := []
    scorer := Scorer.powerOn
    filter := []
    deny := Vector.replicate 2 none
    arbiter := Arbiter.powerOn
    monitor := Monitor.powerOn
    reports := ReportQueue.powerOn
    link := { Link.powerOn s.link.fast with sent := s.link.cutOff }
    elapsed := 0
    porHeld := true
    cresetHeld := s.cresetHeld
    freeCount := s.freeCount
    pending := s.pending }

/-- R201: what the end of power-on reset does to a slot: AUTOON sets auto-power, and an asserted PRSNT starts the debounce timer. -/
def Slot.startUp (autoon : Bool) (sl : Slot) : Slot :=
  { sl with
    policy.autoPower := autoon
    pins.debounce := if sl.pins.prsnt then some (BitVec.ofNat 32 Config.debounceMicros) else none
    pins.startUp := sl.pins.prsnt }

/-- END_OF_POWER_ON_RESET: POR# is released with the straps at the levels given; the timebase starts from 0 (R201), the decay epoch
(R48) and the scan (R163) with it. -/
def State.endOfPowerOnReset (s : State) (rate autoon : Bool) : State :=
  s.when s.porHeld fun s =>
    { s with
      slots := s.slots.map (Slot.startUp autoon)
      scorer := Scorer.atStart
      monitor := Monitor.atStart
      link.fast := rate
      elapsed := 0
      porHeld := false }

/-- CONTROL_RESET: CRESET# is asserted: the control reset is taken and held (R202). Asserted again while it is held, it has no further
effect; while POR# is held only the pin's level is taken (log 21). -/
def State.cresetAssert (s : State) : State :=
  if s.cresetHeld then s
  else if s.porHeld then { s with cresetHeld := true }
  else { s.controlReset with cresetHeld := true }

/-- CRESET_RELEASE (R202). -/
def State.cresetRelease (s : State) : State := { s with cresetHeld := false }

/-- PRSNT_CHANGE; while POR# is held only the raw level follows (log 21). -/
def State.prsntPin (s : State) (i : SlotId) (asserted : Bool) : State :=
  if s.porHeld then s.modSlot i fun sl => { sl with pins.prsnt := asserted } else s.prsntChange i asserted

/-- CALERT_ASSERTION; while POR# is held only the level follows (R169: the level sampled at power-on reset). -/
def State.calertPin (s : State) (i : SlotId) : State :=
  if s.porHeld then s.modSlot i fun sl => { sl with pins.calert := true } else s.calertAssertion i

/-- PWREN_CHANGE; while POR# is held only the board's level follows (log 21). -/
def State.pwrenPin (s : State) (i : SlotId) (level : Bool) : State :=
  if s.porHeld then s.modSlot i fun sl => { sl with pins.boardPwren := level } else s.pwrenChange i level

end Sys2Proof.Machine
end

