-- ==== Sys2Proof/Machine/Events.lean ====
section
/-! DEFINITION. The meanings of the commands that are events: slot traffic, link events, timers, pins, rails, resets and the management
line. -/

namespace Sys2Proof.Machine

/-- HOST_REQUEST (R5, R6, R8, R9, R67). -/
def execHostRequest (slot : SlotId) (r : Request) (s : State) : Host.Outcome State Fault Refusal :=
  if r.wf then .next (s.running fun s => s.hostRequest slot r) else .fault .illFormedCommand

/-- HOLD_EXPIRY (R10). -/
def execHoldExpiry (slot : SlotId) (s : State) : Host.Outcome State Fault Refusal :=
  .next (s.running fun s => s.holdExpiry slot)

/-- CARD_COMPLETION (R27 to R32, R126). -/
def execCardCompletion (slot : SlotId) (dest : Addressee) (c : Completion) (s : State) : Host.Outcome State Fault Refusal :=
  if c.wf then .next (s.running fun s => s.cardCompletion slot dest c) else .fault .illFormedCommand

/-- ENTRY_EXPIRY (R34, R35). -/
def execEntryExpiry (slot : SlotId) (tag : Tag) (s : State) : Host.Outcome State Fault Refusal :=
  .next (s.running fun s => s.entryExpiry slot tag)

/-- CARD_REQUEST (R3, R7, R8, R71, R73). -/
def execCardRequest (slot : SlotId) (r : Request) (s : State) : Host.Outcome State Fault Refusal :=
  if r.wf then .next (s.running fun s => s.cardRequest slot r) else .fault .illFormedCommand

/-- HOST_COMPLETION (R74, R75). -/
def execHostCompletion (slot : SlotId) (c : Completion) (s : State) : Host.Outcome State Fault Refusal :=
  if c.wf then .next (s.running fun s => s.hostCompletion slot c) else .fault .illFormedCommand

/-- GHOST_DEADLINE (R76). -/
def execGhostDeadline (slot : SlotId) (s : State) : Host.Outcome State Fault Refusal :=
  .next (s.running fun s => s.ghostDeadline slot)

/-- LINK_DOWN (R14, R16). -/
def execLinkDown (slot : SlotId) (s : State) : Host.Outcome State Fault Refusal :=
  .next (s.running fun s => s.linkDown slot)

/-- LINK_UP (R15, R16, R102). -/
def execLinkUp (slot : SlotId) (s : State) : Host.Outcome State Fault Refusal :=
  .next (s.running fun s => s.linkUp slot)

/-- LINK_GRACE_EXPIRY (R15). -/
def execLinkGraceExpiry (slot : SlotId) (s : State) : Host.Outcome State Fault Refusal :=
  .next (s.running fun s => s.graceExpiry slot)

/-- UPSTREAM_RESET (R17, R18, R40). -/
def execUpstreamReset (slot : SlotId) (s : State) : Host.Outcome State Fault Refusal :=
  .next (s.running fun s => s.upstreamReset slot)

/-- UPSTREAM_RELEASE (R17, R18). -/
def execUpstreamRelease (slot : SlotId) (s : State) : Host.Outcome State Fault Refusal :=
  .next (s.running fun s => s.upstreamRelease slot)

/-- DECAY_EVENT (R48, R157). -/
def execDecayEvent (s : State) : Host.Outcome State Fault Refusal :=
  .next (s.running fun s => s.decayEvent)

/-- CALERT_ASSERTION (R56, R173). -/
def execCalertAssertion (slot : SlotId) (s : State) : Host.Outcome State Fault Refusal :=
  .next (s.calertPin slot)

/-- CALERT_RELEASE (R173). -/
def execCalertRelease (slot : SlotId) (s : State) : Host.Outcome State Fault Refusal :=
  .next (s.calertRelease slot)

/-- DRAIN_EXPIRY (R63). -/
def execDrainExpiry (slot : SlotId) (s : State) : Host.Outcome State Fault Refusal :=
  .next (s.running fun s => s.drainExpiry slot)

/-- DECISION_EXPIRY (R81). -/
def execDecisionExpiry (slot : SlotId) (s : State) : Host.Outcome State Fault Refusal :=
  .next (s.running fun s => s.decisionExpiry slot)

/-- MIN_OFF_EXPIRY (R86, R93). -/
def execMinOffExpiry (slot : SlotId) (s : State) : Host.Outcome State Fault Refusal :=
  .next (s.running fun s => s.minOffExpiry slot)

/-- DISCHARGE_TIMEOUT (R90, R95). -/
def execDischargeTimeout (slot : SlotId) (s : State) : Host.Outcome State Fault Refusal :=
  .next (s.running fun s => s.dischargeExpiry slot)

/-- RAMP_EXPIRY (R99). -/
def execRampExpiry (slot : SlotId) (s : State) : Host.Outcome State Fault Refusal :=
  .next (s.running fun s => s.rampExpiry slot)

/-- RESET_PULSE_EXPIRY (R101). -/
def execResetPulseExpiry (slot : SlotId) (s : State) : Host.Outcome State Fault Refusal :=
  .next (s.running fun s => s.pulseExpiry slot)

/-- TRAINING_TIMEOUT (R102). -/
def execTrainingTimeout (slot : SlotId) (s : State) : Host.Outcome State Fault Refusal :=
  .next (s.running fun s => s.trainingExpiry slot)

/-- RESTORE_TIMEOUT (R103). -/
def execRestoreTimeout (slot : SlotId) (s : State) : Host.Outcome State Fault Refusal :=
  .next (s.running fun s => s.restoreExpiry slot)

/-- RESEND_TIMER_EXPIRY (R127). -/
def execResendTimerExpiry (slot : SlotId) (s : State) : Host.Outcome State Fault Refusal :=
  .next (s.running fun s => s.resendExpiry slot)

/-- REPLAY_WRITE_DEADLINE (R128). -/
def execReplayWriteDeadline (slot : SlotId) (s : State) : Host.Outcome State Fault Refusal :=
  .next (s.running fun s => s.replayDeadline slot)

/-- PRSNT_CHANGE (R171). -/
def execPrsntChange (slot : SlotId) (asserted : Bool) (s : State) : Host.Outcome State Fault Refusal :=
  .next (s.prsntPin slot asserted)

/-- PRESENCE_DEBOUNCE_EXPIRY (R172). -/
def execPresenceDebounceExpiry (slot : SlotId) (s : State) : Host.Outcome State Fault Refusal :=
  .next (s.running fun s => s.debounceExpiry slot)

/-- CONVERSION_END (R163). -/
def execConversionEnd (q : Quantity) (s : State) : Host.Outcome State Fault Refusal :=
  .next (s.running fun s => s.conversionEnd q)

/-- PWREN_CHANGE (R165). -/
def execPwrenChange (slot : SlotId) (level : Bool) (s : State) : Host.Outcome State Fault Refusal :=
  .next (s.pwrenPin slot level)

/-- ATTN_BLINK_TOGGLE (R170). -/
def execAttnBlinkToggle (slot : SlotId) (s : State) : Host.Outcome State Fault Refusal :=
  .next (s.running fun s => s.blinkToggle slot)

/-- POWER_ON_RESET (R201). -/
def execPowerOnReset (s : State) : Host.Outcome State Fault Refusal :=
  .next (s.powerOnReset)

/-- END_OF_POWER_ON_RESET (R201). -/
def execEndOfPowerOnReset (rate : Bool) (autoon : Bool) (s : State) : Host.Outcome State Fault Refusal :=
  .next (s.endOfPowerOnReset rate autoon)

/-- CONTROL_RESET (R202). -/
def execControlReset (s : State) : Host.Outcome State Fault Refusal :=
  .next (s.cresetAssert)

/-- CRESET_RELEASE (R202). -/
def execCresetRelease (s : State) : Host.Outcome State Fault Refusal :=
  .next (s.cresetRelease)

/-- CHARACTER_RECEIVED (R180, R181). -/
def execCharacterReceived (value : Byte) (stopBit : Bool) (s : State) : Host.Outcome State Fault Refusal :=
  .next (s.running fun s => s.characterReceived value stopBit)

/-- GAP_TIMER_EXPIRY (R181). -/
def execGapTimerExpiry (s : State) : Host.Outcome State Fault Refusal :=
  .next (s.running fun s => s.gapExpiry)

/-- REPLY_START (R184). -/
def execReplyStart (s : State) : Host.Outcome State Fault Refusal :=
  .next (s.running fun s => s.replyStart)

/-- REPLY_SENT (R182, R194). -/
def execReplySent (s : State) : Host.Outcome State Fault Refusal :=
  .next (s.running fun s => s.replySent)

end Sys2Proof.Machine
end

