-- ==== Sys2Proof/Machine/Dispatch.lean ====
section
/-! DEFINITION. exec: one arm per command, each one call of its meaning. -/

namespace Sys2Proof.Machine

def exec (i : Instr) (s : State) : Host.Outcome State Fault Refusal :=
  match i with
  | .hostRequest slot r => Sys2Proof.Machine.execHostRequest slot r s
  | .holdExpiry slot => Sys2Proof.Machine.execHoldExpiry slot s
  | .cardCompletion slot dest c => Sys2Proof.Machine.execCardCompletion slot dest c s
  | .entryExpiry slot tag => Sys2Proof.Machine.execEntryExpiry slot tag s
  | .cardRequest slot r => Sys2Proof.Machine.execCardRequest slot r s
  | .hostCompletion slot c => Sys2Proof.Machine.execHostCompletion slot c s
  | .ghostDeadline slot => Sys2Proof.Machine.execGhostDeadline slot s
  | .linkDown slot => Sys2Proof.Machine.execLinkDown slot s
  | .linkUp slot => Sys2Proof.Machine.execLinkUp slot s
  | .linkGraceExpiry slot => Sys2Proof.Machine.execLinkGraceExpiry slot s
  | .upstreamReset slot => Sys2Proof.Machine.execUpstreamReset slot s
  | .upstreamRelease slot => Sys2Proof.Machine.execUpstreamRelease slot s
  | .decayEvent => Sys2Proof.Machine.execDecayEvent s
  | .calertAssertion slot => Sys2Proof.Machine.execCalertAssertion slot s
  | .calertRelease slot => Sys2Proof.Machine.execCalertRelease slot s
  | .drainExpiry slot => Sys2Proof.Machine.execDrainExpiry slot s
  | .decisionExpiry slot => Sys2Proof.Machine.execDecisionExpiry slot s
  | .minOffExpiry slot => Sys2Proof.Machine.execMinOffExpiry slot s
  | .dischargeTimeout slot => Sys2Proof.Machine.execDischargeTimeout slot s
  | .rampExpiry slot => Sys2Proof.Machine.execRampExpiry slot s
  | .resetPulseExpiry slot => Sys2Proof.Machine.execResetPulseExpiry slot s
  | .trainingTimeout slot => Sys2Proof.Machine.execTrainingTimeout slot s
  | .restoreTimeout slot => Sys2Proof.Machine.execRestoreTimeout slot s
  | .resendTimerExpiry slot => Sys2Proof.Machine.execResendTimerExpiry slot s
  | .replayWriteDeadline slot => Sys2Proof.Machine.execReplayWriteDeadline slot s
  | .prsntChange slot asserted => Sys2Proof.Machine.execPrsntChange slot asserted s
  | .presenceDebounceExpiry slot => Sys2Proof.Machine.execPresenceDebounceExpiry slot s
  | .conversionEnd q => Sys2Proof.Machine.execConversionEnd q s
  | .pwrenChange slot level => Sys2Proof.Machine.execPwrenChange slot level s
  | .attnBlinkToggle slot => Sys2Proof.Machine.execAttnBlinkToggle slot s
  | .powerOnReset => Sys2Proof.Machine.execPowerOnReset s
  | .endOfPowerOnReset rate autoon => Sys2Proof.Machine.execEndOfPowerOnReset rate autoon s
  | .controlReset => Sys2Proof.Machine.execControlReset s
  | .cresetRelease => Sys2Proof.Machine.execCresetRelease s
  | .characterReceived value stopBit => Sys2Proof.Machine.execCharacterReceived value stopBit s
  | .gapTimerExpiry => Sys2Proof.Machine.execGapTimerExpiry s
  | .replyStart => Sys2Proof.Machine.execReplyStart s
  | .replySent => Sys2Proof.Machine.execReplySent s
  | .id sb holdOff => Sys2Proof.Machine.execId sb holdOff s
  | .slotGet sb => Sys2Proof.Machine.execSlotGet sb s
  | .slotSet sb record => Sys2Proof.Machine.execSlotSet sb record s
  | .fence sb => Sys2Proof.Machine.execFence sb s
  | .recover sb kind => Sys2Proof.Machine.execRecover sb kind s
  | .quar sb => Sys2Proof.Machine.execQuar sb s
  | .pwrOn sb => Sys2Proof.Machine.execPwrOn sb s
  | .pwrOff sb => Sys2Proof.Machine.execPwrOff sb s
  | .winSet sb pairs => Sys2Proof.Machine.execWinSet sb pairs s
  | .denySet sb pairs => Sys2Proof.Machine.execDenySet sb pairs s
  | .budgetSet sb budget => Sys2Proof.Machine.execBudgetSet sb budget s
  | .scoreSet sb params => Sys2Proof.Machine.execScoreSet sb params s
  | .imgRead sb index => Sys2Proof.Machine.execImgRead sb index s
  | .imgPut sb offset value mask => Sys2Proof.Machine.execImgPut sb offset value mask s
  | .imgDrop sb => Sys2Proof.Machine.execImgDrop sb s
  | .filterSet sb ranges => Sys2Proof.Machine.execFilterSet sb ranges s
  | .pinMode sb mode => Sys2Proof.Machine.execPinMode sb mode s
  | .pinLoad sb pwren clken crst attn => Sys2Proof.Machine.execPinLoad sb pwren clken crst attn s
  | .pinSample sb => Sys2Proof.Machine.execPinSample sb s
  | .railRead sb => Sys2Proof.Machine.execRailRead sb s
  | .reportTake sb => Sys2Proof.Machine.execReportTake sb s
  | .partReset sb => Sys2Proof.Machine.execPartReset sb s

end Sys2Proof.Machine
end

