-- ==== Sys2Proof/Machine/Idle.lean ====
section
/-! DEFINITION. What the part does when no command waits: it takes one event it owes at this instant, or one microsecond passes (log 2). -/

namespace Sys2Proof.Machine

/-- What the part can owe at an instant: an event of the table; the end of a conversion, whose quantity is a free value (log 4); or the
arrival of a request that waits in a slot link's buffering (R8). -/
inductive Owed where
  | event (c : Instr)
  | conversion
  | hostArrival (slot : SlotId)
  | cardArrival (slot : SlotId)
  deriving DecidableEq, Repr

/-- An event, if it is owed. -/
def Owed.if (c : Bool) (e : Owed) : List Owed := if c then [e] else []

/-- The deadline of the decision timer, if it runs. -/
def DecisionTimer.deadline : DecisionTimer → Timer
  | .running d => some d
  | _ => none

/-- The deadline of the reset pulse timer, if it runs. -/
def PulseTimer.deadline : PulseTimer → Timer
  | .running d => some d
  | _ => none

/-- What slot `i` owes at this instant (R199). -/
def State.slotOwed (s : State) (i : SlotId) : List Owed :=
  let sl := s.slot i
  Owed.if (sl.chan.hold.any fun h => s.due (some h.deadline)) (.event (.holdExpiry i))
    ++ (sl.entries.filter fun e => s.due (some e.deadline)).map (fun e => .event (.entryExpiry i e.tag))
    ++ Owed.if (s.due sl.outbound.deadline) (.event (.ghostDeadline i))
    ++ Owed.if (s.due sl.ctl.graceTimer) (.event (.linkGraceExpiry i))
    ++ Owed.if (s.due sl.ctl.drainTimer) (.event (.drainExpiry i))
    ++ Owed.if (s.due sl.ctl.decisionTimer.deadline) (.event (.decisionExpiry i))
    ++ Owed.if (s.due sl.ctl.minOffTimer) (.event (.minOffExpiry i))
    ++ Owed.if (s.due sl.ctl.dischargeTimer) (.event (.dischargeTimeout i))
    ++ Owed.if (s.due sl.ctl.rampTimer) (.event (.rampExpiry i))
    ++ Owed.if (s.due sl.ctl.pulseTimer.deadline) (.event (.resetPulseExpiry i))
    ++ Owed.if (s.due sl.ctl.trainingTimer) (.event (.trainingTimeout i))
    ++ Owed.if (s.due sl.ctl.restoreTimer) (.event (.restoreTimeout i))
    ++ Owed.if (s.due sl.store.resendTimer) (.event (.resendTimerExpiry i))
    ++ Owed.if (s.due sl.store.writeDeadline) (.event (.replayWriteDeadline i))
    ++ Owed.if (s.due sl.pins.debounce && s.startUpTurn i) (.event (.presenceDebounceExpiry i))
    ++ Owed.if (s.due sl.pins.blinkTimer) (.event (.attnBlinkToggle i))
    ++ Owed.if sl.hostMayArrive (.hostArrival i)
    ++ Owed.if sl.cardMayArrive (.cardArrival i)

/-- What the shared blocks owe at this instant: the decay event, the end of a conversion, and the management line's events. -/
def State.sharedOwed (s : State) : List Owed :=
  Owed.if (s.due s.scorer.decayTimer) (.event .decayEvent)
    ++ Owed.if (s.due s.monitor.convEnd) .conversion
    ++ Owed.if (s.due s.link.gapTimer) (.event .gapTimerExpiry)
    ++ Owed.if (s.link.inProcess.any fun p => !p.started && p.startAt ≤ s.lineNow) (.event .replyStart)
    ++ Owed.if (s.link.inProcess.any fun p => p.started && p.endAt ≤ s.lineNow) (.event .replySent)

/-- Everything owed at this instant. -/
def State.owed (s : State) : List Owed := Config.slotIds.flatMap s.slotOwed ++ s.sharedOwed

/-- One owed event is taken. -/
def State.takeOwed (s : State) : Owed → Host.Outcome State Fault Refusal
  | .event c => exec c s
  | .conversion =>
    exec (.conversionEnd { num := Config.railNum s.freeCount, den := Config.railDen s.freeCount })
      { s with freeCount := s.freeCount + 1 }
  | .hostArrival i => .next (s.takeHostWaiting i)
  | .cardArrival i => .next (s.takeCardWaiting i)

/-- One microsecond passes (R199). -/
def State.tick (s : State) : State := { s with elapsed := s.elapsed + 1 }

/-- With nothing owed one microsecond passes; of several events owed any one is taken first (log 3). While POR# is held the part stands
still (R201). -/
def State.idle (s : State) : Host.Outcome State Fault Refusal :=
  if s.porHeld then .next s
  else match s.owed with
    | [] => .next s.tick
    | [e] => s.takeOwed e
    | e :: l =>
      ({ s with freeCount := s.freeCount + 1 } : State).takeOwed
        ((e :: l).getD (Config.pick s.freeCount % (e :: l).length) e)

end Sys2Proof.Machine
end

