-- ==== Sys2Proof/Safety.lean ====
section
/-! DEFINITION. The terms claims are stated in: what is sound of a slot, an image, the report queue, the scorer, the arbiter and the pool;
what a command leaves as it was; the closed forms of entries, attempts, freed entries and fences; and the shapes that several claims
share. -/

namespace Sys2Proof

/-- The request of the management link that a command stands for, with its slot byte (log 18); none for an event. -/
def Instr.request : Instr → Option (Byte × BmcRequest)
  | .id sb h => some (sb, .id h)
  | .slotGet sb => some (sb, .slotGet)
  | .slotSet sb r => some (sb, .slotSet r)
  | .fence sb => some (sb, .fence)
  | .recover sb k => some (sb, .recover k)
  | .quar sb => some (sb, .quar)
  | .pwrOn sb => some (sb, .pwrOn)
  | .pwrOff sb => some (sb, .pwrOff)
  | .winSet sb ps => some (sb, .winSet ps)
  | .denySet sb ps => some (sb, .denySet ps)
  | .budgetSet sb b => some (sb, .budgetSet b)
  | .scoreSet sb p => some (sb, .scoreSet p)
  | .imgRead sb x => some (sb, .imgRead x)
  | .imgPut sb o v m => some (sb, .imgPut o v m)
  | .imgDrop sb => some (sb, .imgDrop)
  | .filterSet sb rs => some (sb, .filterSet rs)
  | .pinMode sb m => some (sb, .pinMode m)
  | .pinLoad sb a b c d => some (sb, .pinLoad a b c d)
  | .pinSample sb => some (sb, .pinSample)
  | .railRead sb => some (sb, .railRead)
  | .reportTake sb => some (sb, .reportTake)
  | .partReset sb => some (sb, .partReset)
  | _ => none

end Sys2Proof

namespace Sys2Proof.Machine

/-! ### Soundness -/

/-- R196: at most 32 records, and a lost count of 0..255. -/
abbrev ReportQueue.sound (q : ReportQueue) : Prop := q.records.length ≤ 32 ∧ q.lost ≤ 255

/-- R5, R44, R4: the gate is open in ONLINE and SUSPECT and in no other state, the score lies within 0..255, and the two counters within
0..2^32 - 1. -/
abbrev Slot.sound (sl : Slot) : Prop :=
  sl.chan.gateOpen = sl.ctl.state.isOpen ∧ sl.ctl.score ≤ 255 ∧ sl.chan.dropped ≤ 4294967295 ∧ sl.chan.absorbed ≤ 4294967295

/-- R114: at most 48 entries, never two with one offset, never one for dword 0. -/
abbrev ImageStore.sound (st : ImageStore) : Prop :=
  st.entries.length ≤ 48 ∧ (st.entries.map fun e => e.offset).Nodup ∧ ∀ e ∈ st.entries, e.offset ≠ 0

/-- The ranges of section 10.3 and R189 for a policy record. -/
abbrev Policy.sound (p : Policy) : Prop :=
  (1 ≤ p.decisionTime ∧ p.decisionTime ≤ 60000) ∧ (1 ≤ p.maxAttempts ∧ p.maxAttempts ≤ 4)
    ∧ (1 ≤ p.quota ∧ p.quota ≤ 64) ∧ (100 ≤ p.slotTimeout ∧ p.slotTimeout ≤ 50000) ∧ p.drain ≤ 10000
    ∧ (1 ≤ p.linkGrace ∧ p.linkGrace ≤ 100) ∧ (1 ≤ p.resetPulse ∧ p.resetPulse ≤ 1000)
    ∧ (10 ≤ p.minOff ∧ p.minOff ≤ 10000) ∧ (100 ≤ p.dischargeTimeout ∧ p.dischargeTimeout ≤ 30000)
    ∧ (1 ≤ p.ramp ∧ p.ramp ≤ 1000) ∧ (10 ≤ p.training ∧ p.training ≤ 10000)
    ∧ (500 ≤ p.currentLimit ∧ p.currentLimit ≤ 20000) ∧ (1 ≤ p.demand ∧ p.demand ≤ 255)

/-- R189, R87, R21, R22, R72: the policy record lies in its ranges, the attempt count is at most max attempts, no two pending entries
have one tag and there are at most 64, and the outbound set holds at most 32 tags, none twice. -/
abbrev Slot.ranged (sl : Slot) : Prop :=
  sl.policy.sound ∧ sl.ctl.attempts ≤ sl.policy.maxAttempts
    ∧ ((sl.entries.map fun e => e.tag).Nodup ∧ sl.entries.length ≤ 64)
    ∧ ((sl.outbound.tags.map fun t => t.tag).Nodup ∧ sl.outbound.tags.length ≤ 32)

/-- R45: the weights fit a byte, the thresholds satisfy 1 ≤ warn < fence ≤ 255, and the decay epoch is 1..1,000 ms. -/
abbrev Scorer.sound (p : Scorer) : Prop :=
  (p.timeout ≤ 255 ∧ p.stray ≤ 255 ∧ p.malformed ≤ 255 ∧ p.errant ≤ 255 ∧ p.linkDown ≤ 255)
    ∧ (1 ≤ p.warn ∧ p.warn < p.fence ∧ p.fence ≤ 255) ∧ 1 ≤ p.decayEpoch ∧ p.decayEpoch ≤ 1000

/-- What holds of the part after every step, block by block (R4, R5, R21, R22, R44, R45, R72, R87, R114, R189, R196). -/
def State.Sound (s : State) : Prop :=
  s.reports.sound ∧ s.scorer.sound ∧ ∀ i, (s.slot i).sound ∧ (s.slot i).store.sound ∧ (s.slot i).ranged

/-- R137, R140: no slot stands in the inrush queue twice, nor in the granted set; the queue holds only slots in POWER_WAIT and the granted
set only slots in RAMPING, so none is in both; and two rail partners are never granted together. R137, R148: every slot in RAMPING is
granted, and every slot in POWER_WAIT stands in the queue. -/
def State.ArbiterSound (s : State) : Prop :=
  (s.arbiter.queue.map fun p => p.slot).Nodup ∧ (s.arbiter.granted.map fun p => p.slot).Nodup
    ∧ (∀ p ∈ s.arbiter.queue, (s.slot p.slot).ctl.state = .powerWait)
    ∧ (∀ p ∈ s.arbiter.granted, (s.slot p.slot).ctl.state = .ramping)
    ∧ (∀ p ∈ s.arbiter.granted, ∀ q ∈ s.arbiter.granted, q.slot ≠ partner p.slot)
    ∧ (∀ i, (s.slot i).ctl.state = .powerWait → ∃ p ∈ s.arbiter.queue, p.slot = i)
    ∧ ∀ i, (s.slot i).ctl.state = .ramping → ∃ p ∈ s.arbiter.granted, p.slot = i

/-- R22, R41: at most 192 entries are pending in all, and none outside ONLINE, SUSPECT and FENCING. -/
def State.PoolSound (s : State) : Prop :=
  (s.slots.toList.map fun sl => sl.entries.length).sum ≤ 192
    ∧ ∀ i, (s.slot i).ctl.state ≠ .online → (s.slot i).ctl.state ≠ .suspect → (s.slot i).ctl.state ≠ .fencing →
        (s.slot i).entries = []

/-! ### What a command leaves -/

/-- Every slot but `i` is unchanged. -/
def OthersKept (i : SlotId) (s t : State) : Prop := ∀ j, j ≠ i → t.slot j = s.slot j

/-- The controller in a state, with every timer that is bound to a state stopped, and the link grace timer kept only in ONLINE and
SUSPECT (R15, R60, R86). -/
def Controller.into (c : Controller) (st : SlotState) : Controller :=
  { c with
    state := st, drainTimer := none, decisionTimer := .stopped, isoPolicy := none, target := none, dischargeTimer := none
    rampTimer := none, pulseTimer := .stopped, trainingTimer := none, restoreTimer := none
    graceTimer := if st = .online ∨ st = .suspect then c.graceTimer else none }

/-- The controller at a power-off: the power-off instant is set and the min-off timer starts anew (R60, R86). -/
def Controller.powerOffAt (c : Controller) (now : Micros) (minOff : Nat) : Controller :=
  { c with powerOff := some now, minOffTimer := some (now + BitVec.ofNat 32 (1000 * minOff)), minOffElapsed := false }

/-- A kept result after a change of the slot's PWREN level clears its mark (R165) and a power-off leaves it behind (R93). -/
def RailResult.after (r : RailResult) (turned cut : Bool) : RailResult :=
  { r with mark := r.mark && !turned, afterOff := r.afterOff && !cut }

/-- The rail results of a slot after its PWREN level may have changed (R165) or power gone off (R93). -/
def Rails.after (r : Rails) (turned cut : Bool) : Rails :=
  { v12 := r.v12.map fun x => x.after turned cut
    v33 := r.v33.map fun x => x.after turned cut
    current := r.current.map fun x => x.after turned cut
    runCount := if turned then 0 else r.runCount }

/-- The pin unit after the commanded ATTN, which blinked or not `before`, blinks or not `after` (R170). -/
def PinUnit.after (p : PinUnit) (before after : Bool) (now : Micros) : PinUnit :=
  if after then
    if before then p
    else { p with blinkSince := some now, blinkOn := true, blinkTimer := some (now + 500000#32) }
  else { p with blinkOn := false, blinkTimer := none }

/-- The conversion in progress after slot `i`'s PWREN level changed (R165) or its power went off (R93). -/
def Monitor.after (m : Monitor) (i : SlotId) (turned cut : Bool) : Monitor :=
  { m with
    discard := m.discard || (turned && decide (m.channel.val / 3 = i.val))
    afterOff := m.afterOff && !(cut && decide (m.channel.val / 3 = i.val)) }

/-- Slot `i` becomes `new`, and what hangs on its outputs follows at once: a change of its PWREN level reaches the rail monitor (R165),
a change to off sets the power-off instant (R60, R170), and a blink starts or ends (R170). Nothing else of the part changes. -/
def State.moved (s : State) (i : SlotId) (new : Slot) : State :=
  let old := s.slot i
  let turned := old.pwren != new.pwren
  let cut := old.pwren && !new.pwren
  { s.setSlot i
      { new with
        ctl := if cut then new.ctl.powerOffAt s.now new.policy.minOff else new.ctl
        rails := new.rails.after turned cut
        pins := new.pins.after old.blinks new.blinks s.now } with
    monitor := s.monitor.after i turned cut }

/-- The report queue after a report is offered (R196, R202). -/
def ReportQueue.offered (q : ReportQueue) (held : Bool) (r : Report) : ReportQueue :=
  if held then q
  else if q.records.length < 32 then { records := q.records ++ [{ r with lost := q.lost }], lost := 0 }
  else { q with lost := min (q.lost + 1) 255 }

/-- The part takes no reports: POR# or CRESET# is held (R201, R202). -/
def State.mute (s : State) : Bool := s.porHeld || s.cresetHeld

/-- A report record that is no STATE record (R197), stamped with the millisecond count, after its step (R200, log 34). -/
def State.note (s : State) (kind : ReportKind) (i : SlotId) (reason : Option Reason) (value : Option Nat) : Report :=
  { kind := kind, slot := i, stamp := BitVec.ofNat 32 (s.elapsed / 1000), reason := reason, states := none, value := value
    partialRestore := false, lost := 0 }

/-- A STATE record of slot `i`: old state the last reported state (R197), stamped likewise (log 34). -/
def State.stateNote (s : State) (i : SlotId) (new : SlotState) (reason : Option Reason) (value : Option Nat) : Report :=
  { kind := .state, slot := i, stamp := BitVec.ofNat 32 (s.elapsed / 1000), reason := reason
    states := some ((s.slot i).ctl.lastReported, new), value := value, partialRestore := false, lost := 0 }

/-! ### Shapes that several claims share -/

/-- The slot is in ONLINE or SUSPECT. -/
abbrev Slot.serving (sl : Slot) : Prop := sl.ctl.state = .online ∨ sl.ctl.state = .suspect

/-- A host request arrives at once: the upstream value is RUNNING, the downstream hold is empty and no earlier request waits (R8, R17). -/
abbrev Slot.hostClear (sl : Slot) : Prop := sl.chan.inReset = false ∧ sl.chan.hold = none ∧ sl.chan.hostWaiting = []

/-- A card request arrives at once: the card link is UP, the card-side hold is empty and no earlier request waits (R8, R14). -/
abbrev Slot.cardClear (sl : Slot) : Prop := sl.chan.linkUp = true ∧ sl.chan.cardHold = none ∧ sl.chan.cardWaiting = []

/-- The slot's pins are in LIVE and its PWREN line is on. -/
abbrev Slot.powered (sl : Slot) : Prop := sl.pins.mode = .live ∧ sl.pwren = true

/-- A score at which the evaluation of a slot in that state does nothing (R50). -/
abbrev Scorer.quietAt (p : Scorer) (st : SlotState) (score : Nat) : Prop :=
  score < p.fence ∧ (st = .online → score < p.warn) ∧ (st = .suspect → p.warn / 2 ≤ score)

/-- The score after a weight: the smaller of the sum and 255 (R46). -/
def Slot.scoreAfter (sl : Slot) (weight : Nat) : Nat := min (sl.ctl.score + weight) 255

/-- The slot with a host-side output added. -/
def Slot.tellsHost (sl : Slot) (o : HostOut) : Slot := { sl with chan.hostOut := sl.chan.hostOut ++ [o] }

/-- The slot with a card-side output added. -/
def Slot.tellsCard (sl : Slot) (o : CardOut) : Slot := { sl with chan.cardOut := sl.chan.cardOut ++ [o] }

/-- The answer of a fill mode for so many dwords (R10, R34, R68). -/
def fillCompletion (m : FillMode) (tag : Tag) (dwords : Nat) : Completion :=
  if m = .ones then { tag := tag, status := .success, data := List.replicate dwords 0xFFFFFFFF#32, final := true }
  else Completion.bare tag .abort

/-- The dwords a fill answer of an entry carries: those a read is still owed, none for a write (R34). -/
def Entry.fillDwords (e : Entry) : Nat :=
  match e.kind with
  | .ioWrite => 0
  | .cfgWrite _ _ _ => 0
  | _ => e.owed - e.delivered

/-- The slot with one more absorbed request, up to 2^32 - 1 (R4). -/
def Slot.absorbedOne (sl : Slot) : Slot := { sl with chan.absorbed := min (sl.chan.absorbed + 1) 4294967295 }

/-- The slot with one more dropped write, up to 2^32 - 1 (R4). -/
def Slot.droppedOne (sl : Slot) : Slot := { sl with chan.dropped := min (sl.chan.dropped + 1) 4294967295 }

/-- A report is offered to the queue (R196, R202). -/
def State.reporting (s : State) (r : Report) : State := { s with reports := s.reports.offered s.mute r }

/-- A host request at a closed gate outside RESTORING (R67 to R70, R121, R122): in FENCING one whose tag is pending is refused; else a
posted one is dropped, a configuration request is served by the image, and any other is answered by fill mode. -/
def State.absorbs (s : State) (i : SlotId) (r : Request) : State :=
  let sl := s.slot i
  let answered := fun (x : Slot) (c : Completion) => s.setSlot i (x.tellsHost (.completion c)).absorbedOne
  if sl.ctl.state = .fencing ∧ r.posted = false ∧ ∃ e ∈ sl.entries, e.tag = r.tag then
    (s.setSlot i (sl.tellsHost (.completion (Completion.bare r.tag .abort)))).reporting
      (s.note .protocol i (some .tagCollision) (some r.tag.toNat))
  else match r.kind with
    | .memWrite _ _ => s.setSlot i sl.droppedOne
    | .message => s.setSlot i sl.droppedOne
    | .cfgRead o => answered sl { tag := r.tag, status := .success, data := [sl.configRead o], final := true }
    | .cfgWrite o m d =>
      answered { sl with store := (sl.store.record s.filter o d m).1 }
        (Completion.bare r.tag (if (sl.store.record s.filter o d m).2 = true then .success else .abort))
    | k => answered sl (fillCompletion sl.policy.fill r.tag k.fillDwords)

/-- What stands in the downstream hold is absorbed in the slot's state, and the slot leaves the pool wait list (R11, R25). -/
def State.absorbsHold (s : State) (i : SlotId) : State :=
  match (s.slot i).chan.hold with
  | none => s
  | some h =>
    (({ s with poolWait := s.poolWait.filter fun j => j ≠ i } : State).setSlot i
      { s.slot i with chan.hold := none }).absorbs i h.req

/-- What stands in the card-side hold is blocked as the gate closes (R11, R71): a posted request is dropped, any other answered
UNSUPPORTED. -/
def State.blocksHold (s : State) (i : SlotId) : State :=
  match (s.slot i).chan.cardHold with
  | none => s
  | some r =>
    let freed : Slot := { s.slot i with chan.cardHold := none }
    s.setSlot i (if r.posted = true then freed else freed.tellsCard (.completion (Completion.bare r.tag .unsupported)))

/-- Entry to a closed state: slot `i` as given, its gate closed, its outputs following, and its STATE report (R5, R197). -/
def State.arrives (s : State) (i : SlotId) (ctl : Controller) (value : Option Nat) : State :=
  (s.moved i
    { s.slot i with
      chan.gateOpen := ctl.state.isOpen, ctl := { ctl with lastReported := ctl.state } }).reporting
    (s.stateNote i ctl.state ctl.reason value)

/-- Entry to FENCING, before an end of the drain (R62): the drain timer runs, every tag of the outbound set becomes a ghost, and for reason
OVERCURRENT the power-cut mark is set. What stands in the holds is answered in the new state (R11), then the STATE report is made. For
reason REMOVED the drain is 0 (R61). -/
def State.goesFencing (s : State) (i : SlotId) (reason : Reason) (disposition : Disposition) : State :=
  let sl := s.slot i
  let entered := s.moved i
    { sl with
      chan.gateOpen := false
      ctl :=
        { sl.ctl.into .fencing with
          reason := some reason, disposition := some disposition
          powerCut := sl.ctl.powerCut || decide (reason = .overcurrent)
          drainTimer := some (s.now + BitVec.ofNat 32 (if reason = .removed then 0 else sl.policy.drain)) }
      outbound := { tags := sl.outbound.tags.map fun t => { t with ghost := true }, deadline := none } }
  let emptied := (entered.absorbsHold i).blocksHold i
  (emptied.setSlot i { emptied.slot i with ctl.lastReported := .fencing }).reporting
    (s.stateNote i .fencing (some reason) (some sl.ctl.score))

/-- Entry to QUARANTINED (R84): whether or not power was on, the power-off instant is set; the slot leaves the arbiter; the STATE report
carries the attempt count; what stands in the hold is absorbed (R11). The attempt's kind is forgotten (log 30). -/
def State.goesQuarantined (s : State) (i : SlotId) (reason : Reason) : State :=
  let sl := s.slot i
  let t := s.moved i
    { sl with
      chan.gateOpen := false
      ctl :=
        { sl.ctl.into .quarantined with
          reason := some reason, powerCut := false, resetKind := none, origin := none } }
  (State.reporting
    { t.setSlot i
        { t.slot i with
          ctl := { (t.slot i).ctl.powerOffAt s.now sl.policy.minOff with lastReported := .quarantined }
          rails := (t.slot i).rails.after false true } with
      monitor := t.monitor.after i false true
      arbiter :=
        { t.arbiter with
          queue := t.arbiter.queue.filter fun p => p.slot ≠ i
          granted := t.arbiter.granted.filter fun p => p.slot ≠ i } }
    (s.stateNote i .quarantined (some reason) (some sl.ctl.attempts))).absorbsHold i

/-- Entry to OFF (R106): no attempt is left, and the STATE report carries the recorded reason. -/
def State.goesOff (s : State) (i : SlotId) : State :=
  s.arrives i
    { (s.slot i).ctl.into .off with attempts := 0, resetKind := none, origin := none, powerCut := false } none

/-- Entry to EMPTY (R109): what the slot held of the card is forgotten, and the STATE report carries REMOVED. -/
def State.goesEmpty (s : State) (i : SlotId) : State :=
  let sl := s.slot i
  (s.setSlot i
    { sl with
      chan.identity := none
      outbound := { tags := [], deadline := none }
      store :=
        { entries := [], incomplete := false, sequence := [], cursor := none, outstanding := none, resendTimer := none
          replayed := 0, nextTag := sl.store.nextTag } }).arrives i
    { sl.ctl.into .empty with
      score := 0, attempts := 0, resetKind := none, origin := none, powerCut := false, reason := some .removed } none

/-! ### Grants -/

/-- R140: the place fits the budget beside the granted sum, and its slot's rail partner is not granted. -/
abbrev Arbiter.admits (a : Arbiter) (p : Place) : Prop :=
  (a.granted.map fun q => q.demand).sum + p.demand ≤ a.budget ∧ ∀ q ∈ a.granted, q.slot ≠ partner p.slot

/-- A grant (R143) and the slot's entry to RAMPING (R99). -/
def State.goesRamping (s : State) (p : Place) : State :=
  let sl := s.slot p.slot
  State.moved { s with arbiter.granted := s.arbiter.granted ++ [p] } p.slot
    { sl with
      chan.gateOpen := false
      ctl :=
        { sl.ctl.into .ramping with
          rampTimer := some (s.now + BitVec.ofNat 32 (1000 * sl.policy.ramp)) } }

/-- The BUDGET failure (R90): an ATTEMPT report, then QUARANTINED. -/
def State.failsBudget (s : State) (i : SlotId) : State :=
  (s.reporting (s.note .attempt i (some .budget) (some (s.slot i).ctl.attempts))).goesQuarantined i .budget

/-- Entry to POWER_WAIT, before its request for a grant (R97). -/
def State.goesPowerWait (s : State) (i : SlotId) (ctl : Controller) : State :=
  s.moved i { s.slot i with chan.gateOpen := false, ctl := ctl.into .powerWait }

/-- Entry to POWER_WAIT and the request with the demand in force (R97, R141): the BUDGET failure, or a place at the tail of the queue and
a grant check. -/
def State.asksGrant (s : State) (i : SlotId) (ctl : Controller) : State :=
  let demand := (s.slot i).policy.demand
  if s.arbiter.budget < demand then (s.goesPowerWait i ctl).failsBudget i
  else
    ({ s.goesPowerWait i ctl with arbiter.queue := s.arbiter.queue ++ [{ slot := i, demand := demand }] } : State).grantCheck

/-! ### DISCHARGING -/

/-- R93: the latest 12 V result is below 1,000 mV and the latest 3.3 V result below 300 mV, each converted after the power-off. -/
def Rails.down (r : Rails) : Bool :=
  match r.v12, r.v33 with
  | some v, some w => v.afterOff && w.afterOff && decide (4 * v.code < 1000) && decide (w.code < 300)
  | _, _ => false

/-- R93: min-off has elapsed and the rails have fallen. -/
def Slot.rested (sl : Slot) : Bool := sl.ctl.minOffElapsed && sl.rails.down

/-- Entry to DISCHARGING, before its check (R92). -/
def State.goesDischarging (s : State) (i : SlotId) (ctl : Controller) (target : Target) : State :=
  s.moved i
    { s.slot i with
      chan.gateOpen := false
      ctl :=
        { ctl.into .discharging with
          powerCut := false, target := some target
          dischargeTimer := some (s.now + BitVec.ofNat 32 (1000 * (s.slot i).policy.dischargeTimeout)) } }

/-- Where a completed discharge leads (R94): to POWER_WAIT for a bring-up, else to OFF with a card present and to EMPTY without. -/
def State.completesDischarge (s : State) (i : SlotId) : State :=
  if (s.slot i).ctl.target = some .bringUp then s.asksGrant i (s.slot i).ctl
  else if (s.slot i).ctl.present = true then s.goesOff i
  else s.goesEmpty i

/-- Entry to DISCHARGING, where what stands in the hold is absorbed (R11), and its check at once (R92, R93, R94). -/
def State.discharges (s : State) (i : SlotId) (ctl : Controller) (target : Target) : State :=
  let t := (s.goesDischarging i ctl target).absorbsHold i
  if (t.slot i).rested = true then t.completesDischarge i else t

/-! ### Attempts -/

/-- Entry to RESETTING from RAMPING or ISOLATED (R101). -/
def State.goesResetting (s : State) (i : SlotId) (ctl : Controller) : State :=
  s.moved i
    { s.slot i with
      chan.gateOpen := false
      ctl :=
        { ctl.into .resetting with
          pulseTimer := .running (s.now + BitVec.ofNat 32 (1000 * (s.slot i).policy.resetPulse)) } }

/-- The first attempt of a recovery, from ISOLATED or QUARANTINED (R88): WARM where that kind is named and no power was cut (R60), else
COLD. -/
def State.recovers (s : State) (i : SlotId) (named : ResetKind) : State :=
  let ctl := (s.slot i).ctl
  if named = .warm ∧ ctl.powerCut = false then
    s.goesResetting i { ctl with attempts := 1, resetKind := some .warm, origin := some .recovery }
  else s.discharges i { ctl with attempts := 1, resetKind := some .cold, origin := some .recovery } .bringUp

/-- A bring-up from OFF or EMPTY (R88, R108, R110): to POWER_WAIT at once where min-off has elapsed, else through DISCHARGING. -/
def State.bringsUp (s : State) (i : SlotId) (reason : Reason) : State :=
  let ctl : Controller :=
    { (s.slot i).ctl with
      reason := some reason, attempts := 1, resetKind := some .cold, origin := some .bringUp }
  if ctl.minOffElapsed = true then s.asksGrant i ctl else s.discharges i ctl .bringUp

/-- The replay stops (R129, R130). -/
def ImageStore.stopped (st : ImageStore) : ImageStore :=
  { st with sequence := [], cursor := none, outstanding := none, resendTimer := none }

/-- What the state of an attempt gives back as the slot leaves it (R89, R91, R144): RAMPING its grant, with a grant check, and RESTORING its
replay. -/
def State.stageLeft (s : State) (i : SlotId) : State :=
  match (s.slot i).ctl.state with
  | .ramping =>
    ({ s with arbiter.granted := s.arbiter.granted.filter fun p => p.slot ≠ i } : State).grantCheck
  | .restoring => s.setSlot i { s.slot i with store := (s.slot i).store.stopped }
  | _ => s

/-- An attempt failure (R89): an ATTEMPT report, then a COLD attempt with attempts left, else QUARANTINED. -/
def State.failsAttempt (s : State) (i : SlotId) (reason : Reason) : State :=
  let left := s.stageLeft i
  let ctl := (left.slot i).ctl
  let told := left.reporting (left.note .attempt i (some reason) (some ctl.attempts))
  if ctl.attempts < (left.slot i).policy.maxAttempts then
    told.discharges i
      { ctl with reason := some reason, attempts := ctl.attempts + 1, resetKind := some .cold } .bringUp
  else told.goesQuarantined i .exhausted

/-- The slot leaves the inrush queue without a grant, with a grant check if it stood at the head (R145). -/
def State.queueLeft (s : State) (i : SlotId) : State :=
  let t : State := { s with arbiter.queue := s.arbiter.queue.filter fun p => p.slot ≠ i }
  if (s.arbiter.queue.head?.map fun p => p.slot) = some i then t.grantCheck else t

/-- An attempt abandoned (R91): in DISCHARGING the target becomes OFF and the timer runs on, and where it is OFF already nothing changes,
the recorded reason with it (R96; logs 12, 35); from the other recovery states the slot enters DISCHARGING with target OFF. That the grant
check of a departing head is taken before that entry is the model's choice (log 33). -/
def State.abandons (s : State) (i : SlotId) (reason : Reason) : State :=
  let sl := s.slot i
  if sl.ctl.state = .discharging then
    if sl.ctl.target = some .off then s
    else s.setSlot i { sl with ctl.reason := some reason, ctl.resetKind := none, ctl.target := some .off }
  else
    let left := if sl.ctl.state = .powerWait then s.queueLeft i else s.stageLeft i
    left.discharges i { (left.slot i).ctl with reason := some reason, resetKind := none } .off

/-! ### Held requests and freed entries -/

/-- The held request of a slot in service with its card link UP is re-offered (R9, R23, R25): a posted one is forwarded; a tag collision is
refused; a request short of quota stays and its slot waits for quota; one short of a pool entry waits for the pool; else it is admitted
with the arrival time and the deadline it has. -/
def State.reoffers (s : State) (i : SlotId) (h : Held) : State :=
  let sl := s.slot i
  let away : State := { s with poolWait := s.poolWait.filter fun j => j ≠ i }
  let freed : Slot := { sl with chan.hold := none }
  if h.req.posted = true then away.setSlot i (freed.tellsCard (.request .host h.req))
  else if ∃ e ∈ sl.entries, e.tag = h.req.tag then
    (away.setSlot i (freed.tellsHost (.completion (Completion.bare h.req.tag .abort)))).reporting
      (s.note .protocol i (some .tagCollision) (some h.req.tag.toNat))
  else if sl.policy.quota ≤ sl.entries.length then away
  else if s.poolFree = 0 then { s with poolWait := if i ∈ s.poolWait then s.poolWait else s.poolWait ++ [i] }
  else
    away.setSlot i
      { freed.tellsCard (.request .host h.req) with
        entries := sl.entries ++
          [{ tag := h.req.tag
             kind := h.req.kind.entryKind.1
             owed := h.req.kind.entryKind.2
             delivered := 0
             arrival := h.arrival
             deadline := h.deadline }] }

/-- What stands in the hold is re-offered where it may proceed: in service, with the card link UP (R9, R11, R25). -/
def State.reoffersHold (s : State) (i : SlotId) : State :=
  match (s.slot i).chan.hold with
  | some h => if (s.slot i).serving ∧ (s.slot i).chan.linkUp = true then s.reoffers i h else s
  | none => s

/-- R26: a freed entry is offered along the pool wait list until a held request takes it. A slot that may not proceed keeps its place and is
passed over (log 10); one whose request meets a tag collision is refused (log 11). -/
def State.offersAlong : List SlotId → State → State
  | [], s => s
  | j :: rest, s =>
    if (s.reoffersHold j).poolFree < s.poolFree then s.reoffersHold j else State.offersAlong rest (s.reoffersHold j)

/-- R33, R25: slot `i`, which becomes `left`, has freed one of its entries. The entry is offered along the pool wait list (R26); then what
stands in the slot's own hold is offered, unless the slot waits for the pool. -/
def State.frees (s : State) (i : SlotId) (left : Slot) : State :=
  let t := State.offersAlong s.poolWait (s.setSlot i left)
  if i ∈ t.poolWait then t else t.reoffersHold i

/-- R40: every entry of the slot is removed without answer, one at a time, each freed as R33 says. -/
def State.discards (s : State) (i : SlotId) : State :=
  (s.slot i).entries.foldl (fun t _ => t.frees i { t.slot i with entries := (t.slot i).entries.tail }) s

/-- The slot with its oldest entry answered by fill mode and gone (R34, R37). -/
def Slot.swept (sl : Slot) (e : Entry) : Slot :=
  { sl.tellsHost (.completion (fillCompletion sl.policy.fill e.tag e.fillDwords)) with entries := sl.entries.tail }

/-- The sweep at a drain's end (R37): every entry left is answered by fill mode, oldest first, and freed as R33 says. -/
def State.sweeps (s : State) (i : SlotId) : State :=
  (s.slot i).entries.foldl (fun t e => t.frees i ((t.slot i).swept e)) s

/-- No other slot on the pool wait list may take an entry that slot `i` frees (R26): each is out of service, or its card link is not UP. -/
abbrev State.unclaimed (s : State) (i : SlotId) : Prop :=
  ∀ j ∈ s.poolWait, j ≠ i → ¬ ((s.slot j).serving ∧ (s.slot j).chan.linkUp = true)

/-! ### FENCING and ISOLATED -/

/-- Entry to ISOLATED and what its policy does there (R78, R80, R81). -/
def State.goesIsolated (s : State) (i : SlotId) : State :=
  let sl := s.slot i
  match sl.policy.policy with
  | .hold => s.arrives i { sl.ctl.into .isolated with isoPolicy := some .hold } none
  | .ask =>
    s.arrives i
      { sl.ctl.into .isolated with
        isoPolicy := some .ask
        decisionTimer := .running (s.now + BitVec.ofNat 32 (1000 * sl.policy.decisionTime)) } none
  | .auto =>
    (s.arrives i { sl.ctl.into .isolated with isoPolicy := some .auto } none).recovers i sl.policy.firstKind

/-- The exit from FENCING by its disposition (R66). -/
def State.leavesFencing (s : State) (i : SlotId) : State :=
  if (s.slot i).ctl.disposition = some .off then s.discharges i (s.slot i).ctl .off else s.goesIsolated i

/-- A fence (R62, R63): the entry to FENCING, and its end at once where nothing is pending or the drain is 0. -/
def State.fences (s : State) (i : SlotId) (reason : Reason) (disposition : Disposition) : State :=
  let t := s.goesFencing i reason disposition
  if (s.slot i).entries = [] ∨ reason = .removed ∨ (s.slot i).policy.drain = 0 then (t.sweeps i).leavesFencing i else t

/-! ### Weights and their evaluation -/

/-- Entry to SUSPECT, or the return to ONLINE from it (R50, R51). -/
def State.serves (s : State) (i : SlotId) (st : SlotState) : State :=
  let sl := s.slot i
  (s.moved i
    { sl with chan.gateOpen := true, ctl := { sl.ctl.into st with lastReported := st } }).reporting
    (s.stateNote i st (some .score) (some sl.ctl.score))

/-- The evaluation of a slot in service after an event of kind `why` (R50, R51): a fence with its HANG report, SUSPECT, ONLINE, or
nothing. -/
def State.evaluates (s : State) (i : SlotId) (why : Reason) : State :=
  let sl := s.slot i
  if ¬ sl.serving then s
  else if s.scorer.fence ≤ sl.ctl.score then
    (s.reporting (s.note .hang i (some why) (some sl.ctl.score))).fences i .score .recover
  else if sl.ctl.state = .online ∧ s.scorer.warn ≤ sl.ctl.score then s.serves i .suspect
  else if sl.ctl.state = .suspect ∧ sl.ctl.score < s.scorer.warn / 2 then s.serves i .online
  else s

/-- A card-fault event (R46, R52): in ONLINE and SUSPECT a weight that is not 0 is added, and the slot is evaluated. -/
def State.weighs (s : State) (i : SlotId) (weight : Nat) (why : Reason) : State :=
  let sl := s.slot i
  if sl.serving ∧ weight ≠ 0 then (s.setSlot i { sl with ctl.score := sl.scoreAfter weight }).evaluates i why else s

/-! ### ONLINE -/

/-- Entry to ONLINE from RESTORING (R104): the gate opens and a held request is offered; score and attempt count become 0; the ghost period
begins if a ghost is held; the STATE report, and in a recovery the RESTORED report, are made. -/
def State.goesOnline (s : State) (i : SlotId) : State :=
  let sl := s.slot i
  let t := (s.moved i { sl with chan.gateOpen := true, ctl := sl.ctl.into .online }).reoffersHold i
  let recovery := sl.ctl.origin ≠ some .upstream ∧ sl.ctl.origin ≠ some .bringUp
  let x := t.slot i
  let u := (t.setSlot i
    { x with
      ctl :=
        { x.ctl with
          score := 0, attempts := 0, resetKind := none, origin := none, lastReported := .online }
      outbound.deadline :=
        if ∃ g ∈ x.outbound.tags, g.ghost = true then some (s.now + BitVec.ofNat 32 sl.policy.slotTimeout)
        else x.outbound.deadline
      store.incomplete := if recovery then false else sl.store.incomplete }).reporting
    (s.stateNote i .online sl.ctl.reason (some sl.ctl.attempts))
  if recovery then
    u.reporting { s.note .restored i none (some sl.store.replayed) with partialRestore := sl.store.incomplete }
  else u

/-! ### Card requests that fail the check -/

/-- A card request that fails the permit check for `why` (R155, R156, R157): a read is answered UNSUPPORTED, the first failure of an epoch
makes an ERRANT report with the first page, and the errant-DMA weight is added. -/
def State.turnsErrant (s : State) (i : SlotId) (r : Request) (addr : BitVec 48) (why : Reason) : State :=
  let sl := s.slot i
  let answered := if r.posted = true then sl else sl.tellsCard (.completion (Completion.bare r.tag .unsupported))
  let t := s.setSlot i { answered with permit.errantReported := true }
  let told :=
    if sl.permit.errantReported = true then t else t.reporting (s.note .errant i (some why) (some (addr.toNat / 4096)))
  told.weighs i s.scorer.errant .errant

/-! ### Pins -/

/-- The forced return to LIVE (R177); in ISOLATED under ASK the decision timer starts again in full (R81). The PWREN level is
then the LIVE drive, even where the board held the line on in FLOAT: the model's choice (log 39). -/
def State.returnsToLive (s : State) (i : SlotId) : State :=
  let sl := s.slot i
  if sl.pins.mode = .live then s
  else s.moved i
    { sl with
      pins.mode := .live
      ctl.decisionTimer :=
        if sl.ctl.state = .isolated ∧ sl.ctl.isoPolicy = some .ask then
          .running (s.now + BitVec.ofNat 32 (1000 * sl.policy.decisionTime))
        else sl.ctl.decisionTimer }

/-! ### Completions and pending entries -/

/-- R29 to R32: the completion ends the entry. -/
def Entry.EndedBy (e : Entry) (c : Completion) : Prop :=
  let config := (∃ o, e.kind = .cfgRead o) ∨ ∃ o v m, e.kind = .cfgWrite o v m
  let reads := e.kind = .memRead ∨ e.kind = .ioRead ∨ ∃ o, e.kind = .cfgRead o
  c.status = .unsupported ∨ c.status = .abort ∨ (c.status = .retry ∧ config)
    ∨ (c.status = .success ∧ c.final = true
        ∧ (reads ∧ e.delivered + c.data.length = e.owed ∨ ¬ reads ∧ c.data = []))

/-- R29 to R31: the completion does not fit the entry. -/
def Entry.MalformedBy (e : Entry) (c : Completion) : Prop :=
  let config := (∃ o, e.kind = .cfgRead o) ∨ ∃ o v m, e.kind = .cfgWrite o v m
  let reads := e.kind = .memRead ∨ e.kind = .ioRead ∨ ∃ o, e.kind = .cfgRead o
  (c.status = .retry ∧ ¬ config)
    ∨ (c.status = .success ∧ reads
        ∧ (e.owed < e.delivered + c.data.length ∨ (c.final = true ∧ e.delivered + c.data.length < e.owed)
            ∨ (c.final = false ∧ c.data = [])))
    ∨ (c.status = .success ∧ ¬ reads ∧ (c.data ≠ [] ∨ c.final = false))

/-- What the identity capture (R13) and the image (R32, R117) take from a completion that ends an entry. -/
def Slot.takes (sl : Slot) (filter : List Span) (e : Entry) (c : Completion) : Slot :=
  match e.kind, c.status, c.data with
  | .cfgRead o, .success, [d] =>
    if o = 0 ∧ d ≠ 0xFFFFFFFF#32 then { sl with chan.identity := some d } else sl
  | .cfgWrite o v m, .success, _ => { sl with store := (sl.store.record filter o v m).1 }
  | _, _, _ => sl

/-! ### The management link -/

/-- The payload has the length section 10.3 allows for its kind; a count field is read first. -/
def lengthAllowed (payload : List Byte) : Bool :=
  let n := payload.length
  let count := (payload.getD 2 0).toNat
  match (payload.headD 0).toNat with
  | 0x01 => n == 2 || n == 3
  | 0x03 => n == 30
  | 0x05 => n == 3
  | 0x09 => n == 3 + 10 * count
  | 0x0A => n == 3 + 10 * count
  | 0x0B => n == 3
  | 0x0C => n == 11
  | 0x0D => n == 3
  | 0x0E => n == 9
  | 0x10 => n == 3 + 4 * count
  | 0x11 => n == 3
  | 0x12 => n == 6
  | _ => n == 2

/-- A control reset (R202): the link is cleared, with its bit rate kept and `sent` on record (R179, log 9), the report queue is emptied, the
scan begins again at channel 0 and the run counts become 0; all else stands. -/
def State.clearsControl (s : State) (sent : List SentFrame) : State :=
  { s with
    slots := s.slots.map fun sl => { sl with rails.runCount := 0 }
    link :=
      { fast := s.link.fast, phase := .hunt, frameLen := 0, payload := [], gapTimer := none, inProcess := none
        waiting := none, overrun := false, holdOff := 0
        counts := { gap := 0, framing := 0, length := 0, check := 0, overrun := 0 }, sent := sent }
    reports := { records := [], lost := 0 }
    monitor := { channel := 0, convEnd := some (s.now + 25#32), discard := false, afterOff := true } }

/-- The link takes a request as it arrives: idle, with neither POR# nor CRESET# held (R182, R201, R202). -/
abbrev State.linkReady (s : State) : Prop := s.porHeld = false ∧ s.cresetHeld = false ∧ s.link.inProcess = none

/-- A part that answers: its reply is the request code plus 0x80, the status, the flags and the data; OVERRUN is bit 0 of the flags and
REPORTS_WAITING bit 1; the overrun flag is cleared; the reply may begin now, or after the hold-off (R183, R184, R185). -/
def State.answering (s : State) (code status : Byte) (data : List Byte) : State :=
  { s with
    link.overrun := false
    link.inProcess := some
      { reply :=
          code :: status
            :: BitVec.ofNat 8 ((if s.link.overrun then 1 else 0) + if s.reports.records = [] then 0 else 2) :: data
        partReset := false
        started := false
        startAt := s.elapsed * 576 + s.link.holdOff * (if s.link.fast then 625 else 5000)
        endAt := 0 } }

/-- Characters with good stop bits arrive one after another at one instant. -/
def State.hears : List Byte → State → Host.Outcome State Fault Refusal
  | [], s => .next s
  | b :: bs, s =>
    match exec (.characterReceived b true) s with
    | .next t => State.hears bs t
    | o => o

/-- The slot byte of a slot request that names slot `i` (R185). -/
def slotByte (i : SlotId) : Byte := BitVec.ofNat 8 i.val

/-- The bytes of a frame around a payload (section 10.3): sync, length, payload, and a check byte that brings the sum of all but the
sync byte to a multiple of 256. -/
def FrameOf (payload frame : List Byte) : Prop :=
  ∃ check, frame = 0xA5 :: BitVec.ofNat 8 payload.length :: payload ++ [check]
    ∧ (payload.length + (payload.map fun b => b.toNat).sum + check.toNat) % 256 = 0

end Sys2Proof.Machine
end

