-- ==== Sys2Proof/Certificates/Slice0/Obligations.lean ====
section
/-! DEFINITION. The statements for the provers: the queue and the idle step, what every step keeps, and each command's effect. -/

open Sys2Proof Sys2Proof.Machine

/-! ### The queue, the idle step, and what every step keeps -/

/-- A step with a command waiting is that command's meaning on the part with the queue's rest. -/
def Obligations.StepRunsFrontCommand : Prop :=
  ∀ (c : Instr) (rest : List Instr) (s : State), s.pending = c :: rest → step s = exec c { s with pending := rest }

/-- The model's choice (log 2): on an empty queue a part that owes nothing lets one microsecond pass, a part that owes something takes one
of the things it owes (of several any one, log 3), and a part held in POR# stands still. An owed event of the table is taken as that
command is; the end of a conversion with any quantity (log 4). R8: the oldest request that waits in a link's buffering then arrives
exactly as it would have arrived with nothing before it, at the timebase of that step; the others wait on. -/
def Obligations.IdleStepPassesTime : Prop :=
  ∀ s : State, s.pending = [] →
    (s.porHeld = true → step s = .next s)
    ∧ (s.porHeld = false → s.owed = [] → step s = .next { s with elapsed := s.elapsed + 1 })
    ∧ (∀ c, s.porHeld = false → s.owed = [.event c] → step s = exec c s)
    ∧ (s.porHeld = false → s.owed ≠ [] → ∃ e ∈ s.owed, ∃ n,
        let u : State := { s with freeCount := n }
        (∀ c, e = .event c → step s = exec c u)
        ∧ (e = .conversion → ∃ q, step s = exec (.conversionEnd q) u)
        ∧ (∀ i r rest, e = .hostArrival i → (s.slot i).chan.hostWaiting = r :: rest → r.wf = true →
            ∃ t, exec (.hostRequest i r) (u.setSlot i { s.slot i with chan.hostWaiting := [] }) = .next t
              ∧ step s = .next (t.setSlot i { t.slot i with chan.hostWaiting := rest }))
        ∧ ∀ i r rest, e = .cardArrival i → (s.slot i).chan.cardWaiting = r :: rest → r.wf = true →
            ∃ t, exec (.cardRequest i r) (u.setSlot i { s.slot i with chan.cardWaiting := [] }) = .next t
              ∧ step s = .next (t.setSlot i { t.slot i with chan.cardWaiting := rest }))

/-- R199, R8: every timer and deadline that equals the timebase is owed its expiry event by the idle step; so no expiry passes unnoticed.
Of the debounce timers started at the end of power-on reset the lowest slot's that is due is owed first (R201, log 24). A request that
waits in a link's buffering is owed its arrival once the hold is empty. R184: the start of a reply is owed once its first character's time
has come, and its end once its last character has been sent, each at the first whole microsecond at or after its time on the line (log
19). -/
def Obligations.EveryDueExpiryIsOwed : Prop :=
  ∀ (s : State) (i : SlotId),
    (∀ h, (s.slot i).chan.hold = some h → h.deadline = s.now → .event (.holdExpiry i) ∈ s.owed)
    ∧ (∀ e ∈ (s.slot i).entries, e.deadline = s.now → .event (.entryExpiry i e.tag) ∈ s.owed)
    ∧ ((s.slot i).outbound.deadline = some s.now → .event (.ghostDeadline i) ∈ s.owed)
    ∧ ((s.slot i).ctl.graceTimer = some s.now → .event (.linkGraceExpiry i) ∈ s.owed)
    ∧ ((s.slot i).ctl.drainTimer = some s.now → .event (.drainExpiry i) ∈ s.owed)
    ∧ ((s.slot i).ctl.decisionTimer = .running s.now → .event (.decisionExpiry i) ∈ s.owed)
    ∧ ((s.slot i).ctl.minOffTimer = some s.now → .event (.minOffExpiry i) ∈ s.owed)
    ∧ ((s.slot i).ctl.dischargeTimer = some s.now → .event (.dischargeTimeout i) ∈ s.owed)
    ∧ ((s.slot i).ctl.rampTimer = some s.now → .event (.rampExpiry i) ∈ s.owed)
    ∧ ((s.slot i).ctl.pulseTimer = .running s.now → .event (.resetPulseExpiry i) ∈ s.owed)
    ∧ ((s.slot i).ctl.trainingTimer = some s.now → .event (.trainingTimeout i) ∈ s.owed)
    ∧ ((s.slot i).ctl.restoreTimer = some s.now → .event (.restoreTimeout i) ∈ s.owed)
    ∧ ((s.slot i).store.resendTimer = some s.now → .event (.resendTimerExpiry i) ∈ s.owed)
    ∧ (∀ o, (s.slot i).store.outstanding = some o → o.deadline = s.now → .event (.replayWriteDeadline i) ∈ s.owed)
    ∧ ((s.slot i).pins.debounce = some s.now → (s.slot i).pins.startUp = false →
        .event (.presenceDebounceExpiry i) ∈ s.owed)
    ∧ ((s.slot i).pins.debounce = some s.now → (s.slot i).pins.startUp = true →
        (∀ j < i, (s.slot j).pins.startUp = true → (s.slot j).pins.debounce ≠ some s.now) →
        .event (.presenceDebounceExpiry i) ∈ s.owed)
    ∧ ((s.slot i).pins.blinkTimer = some s.now → .event (.attnBlinkToggle i) ∈ s.owed)
    ∧ (s.scorer.decayTimer = some s.now → .event .decayEvent ∈ s.owed)
    ∧ (s.monitor.convEnd = some s.now → .conversion ∈ s.owed)
    ∧ (s.link.gapTimer = some s.now → .event .gapTimerExpiry ∈ s.owed)
    ∧ (∀ p, s.link.inProcess = some p →
        (p.started = false → p.startAt ≤ s.elapsed * 576 → .event .replyStart ∈ s.owed)
        ∧ (p.started = true → p.endAt ≤ s.elapsed * 576 → .event .replySent ∈ s.owed))
    ∧ ((s.slot i).chan.inReset = false → (s.slot i).chan.hold = none → (s.slot i).chan.hostWaiting ≠ [] →
        .hostArrival i ∈ s.owed)
    ∧ ((s.slot i).chan.linkUp = true → (s.slot i).chan.cardHold = none → (s.slot i).chan.cardWaiting ≠ [] →
        .cardArrival i ∈ s.owed)

/-- Every command whose operands lie in the spec's ranges ends in a next state and leaves the queue of commands as it was, and every other
one ends in the named fault (log 23). -/
def Obligations.CommandsCompleteOrFault : Prop :=
  ∀ (c : Instr) (s : State),
    (c.wf = true → ∃ t, exec c s = .next t ∧ t.pending = s.pending)
    ∧ (c.wf = false → exec c s = .fault .illFormedCommand)

/-- Every step keeps the part sound, block by block: the gate is open in ONLINE and SUSPECT and in no other state (R5), scores and
counters stay in range (R44, R4), an image holds at most 48 entries, no offset twice and none for dword 0 (R114), the report queue holds
at most 32 records (R196), no two pending entries of a slot have one tag and there are at most 64 (R21, R22), the outbound set holds at
most 32 tags, none twice (R72), the attempt count is at most max attempts (R87), the policy record stays in its ranges (R189), and the
scorer's thresholds satisfy 1 ≤ warn < fence ≤ 255 (R45). -/
def Obligations.StepKeepsThePartSound : Prop :=
  ∀ s t : State, s.Sound → step s = .next t → t.Sound

/-- R137, R140, R148: every step keeps the arbiter sound: no slot twice in the queue or in the granted set, the queue exactly the slots in
POWER_WAIT and the granted set exactly the slots in RAMPING, and no two rail partners granted together. -/
def Obligations.StepKeepsTheArbiterSound : Prop :=
  ∀ s t : State, s.ArbiterSound → step s = .next t → t.ArbiterSound

/-- R22, R41: every step keeps at most 192 entries pending in all, and every list empty outside ONLINE, SUSPECT and FENCING. The premise
on the arbiter is what the statement before keeps: the slots that a grant check moves stand in POWER_WAIT. -/
def Obligations.StepKeepsThePoolSound : Prop :=
  ∀ s t : State, s.ArbiterSound → s.PoolSound → step s = .next t → t.PoolSound

/-- The part at the end of power-on reset is sound in each of the three ways. -/
def Obligations.ResetIsSound : Prop := State.reset.Sound ∧ State.reset.ArbiterSound ∧ State.reset.PoolSound

/-! ### Resets -/

/-- R201: POWER_ON_RESET takes every slot and every shared block to its power-on values and holds the part: the blink phase is absent
(R169), ALERT# is released (R198), the scan stands at channel 0 (R162), and the link has no frame under assembly and no gap timer (R179).
The model's choices: the levels of the input pins, the commands waiting and what the part has sent are kept (logs 6, 9, 21), what waits in
the links' buffering is lost (log 7), and the level of CRESET# is kept (log 26). While POR# is held, every command but POWER_ON_RESET,
END_OF_POWER_ON_RESET, CRESET_RELEASE and the changes of the input pins changes nothing, and CONTROL_RESET takes its pin's level only;
that is the model's reading too (log 21). What a pin change does then is in the statements PresenceIsDebouncedAndDelivered,
LinkGraceAndCalertFence and OutputsFollowStateAndMode. -/
def Obligations.PowerOnResetClearsThePart : Prop :=
  (∀ s : State, ∃ t, exec .powerOnReset s = .next t
    ∧ (∀ i : SlotId,
        (t.slot i).chan =
          { gateOpen := false, hold := none, cardHold := none, identity := none, linkUp := false, inReset := false
            dropped := 0, absorbed := 0, hostWaiting := [], cardWaiting := []
            hostOut := (s.slot i).chan.hostOut, cardOut := (s.slot i).chan.cardOut }
        ∧ (t.slot i).entries = [] ∧ (t.slot i).outbound = { tags := [], deadline := none }
        ∧ (t.slot i).ctl =
          { state := .empty, reason := none, lastReported := .empty, score := 0, disposition := none, powerCut := false
            powerOff := none, drainTimer := none, decisionTimer := .stopped, graceTimer := none, isoPolicy := none
            attempts := 0, resetKind := none, origin := none, target := none, present := false, minOffTimer := none
            minOffElapsed := true, dischargeTimer := none, rampTimer := none, pulseTimer := .stopped
            trainingTimer := none, restoreTimer := none }
        ∧ (t.slot i).store =
          { entries := [], incomplete := false, sequence := [], cursor := none, outstanding := none, resendTimer := none
            replayed := 0, nextTag := 0 }
        ∧ (t.slot i).pins.mode = .live ∧ (t.slot i).pins.held = ⟨false, false, true, .off⟩
        ∧ (t.slot i).pins.delivered = false ∧ (t.slot i).pins.debounce = none ∧ (t.slot i).pins.startUp = false
        ∧ (t.slot i).pins.blinkSince = none ∧ (t.slot i).pins.blinkOn = false ∧ (t.slot i).pins.blinkTimer = none
        ∧ (t.slot i).pins.prsnt = (s.slot i).pins.prsnt ∧ (t.slot i).pins.calert = (s.slot i).pins.calert
        ∧ (t.slot i).pins.boardPwren = (s.slot i).pins.boardPwren
        ∧ (t.slot i).permit.windows.toList = [none, none, none, none] ∧ (t.slot i).permit.errantReported = false
        ∧ (t.slot i).rails = { v12 := none, v33 := none, current := none, runCount := 0 }
        ∧ { (t.slot i).policy with autoPower := false } =
          { policy := .auto, lapse := .recover, decisionTime := 5000, firstKind := .warm, maxAttempts := 3, quota := 24
            slotTimeout := 10000, drain := 1000, fill := .ones, linkGrace := 5, resetPulse := 100, minOff := 100
            dischargeTimeout := 2000, ramp := 100, training := 1000, currentLimit := 6250, demand := 50
            calertEnable := true, autoPower := false })
    ∧ t.poolWait = [] ∧ t.filter = [] ∧ t.deny.toList = [none, none]
    ∧ t.arbiter = { budget := 100, queue := [], granted := [] } ∧ t.reports = { records := [], lost := 0 } ∧ t.alert = false
    ∧ (t.scorer.timeout, t.scorer.stray, t.scorer.malformed, t.scorer.errant, t.scorer.linkDown) = (32, 8, 16, 16, 64)
    ∧ (t.scorer.warn, t.scorer.fence, t.scorer.decayEpoch) = (64, 128, 100) ∧ t.scorer.decayTimer = none
    ∧ t.monitor = { channel := 0, convEnd := none, discard := false, afterOff := true }
    ∧ t.link.phase = .hunt ∧ t.link.frameLen = 0 ∧ t.link.payload = [] ∧ t.link.gapTimer = none
    ∧ t.link.inProcess = none ∧ t.link.waiting = none ∧ t.link.overrun = false
    ∧ t.link.holdOff = 0 ∧ t.link.counts = { gap := 0, framing := 0, length := 0, check := 0, overrun := 0 }
    ∧ t.porHeld = true ∧ t.cresetHeld = s.cresetHeld ∧ t.pending = s.pending)
  ∧ (∀ (c : Instr) (s : State), s.porHeld = true → c.wf = true →
      c ≠ .powerOnReset → (∀ r a, c ≠ .endOfPowerOnReset r a) → c ≠ .controlReset → c ≠ .cresetRelease →
      (∀ i b, c ≠ .prsntChange i b) → (∀ i, c ≠ .calertAssertion i) → (∀ i, c ≠ .calertRelease i) →
      (∀ i b, c ≠ .pwrenChange i b) → exec c s = .next s)
  ∧ ∀ s : State, s.porHeld = true → exec .controlReset s = .next { s with cresetHeld := true }

/-- R201: at the end of power-on reset the timebase starts from 0, with it the decay epoch (R48) and the scan (R163); RATE sets the bit
rate, AUTOON the auto-power field of every slot, and an asserted PRSNT starts the slot's debounce timer, marked as one of the start-up
(the model's own mark of R201's ascending order, log 24). Everything else of the slots stands, and of the shared blocks but the scorer and
the scan, which hold their power-on values with their first deadlines. With POR# released it is no event (the model's reading, log 1). -/
def Obligations.EndOfPowerOnResetStartsThePart : Prop :=
  ∀ (s : State) (rate autoon : Bool),
    (s.porHeld = true →
      exec (.endOfPowerOnReset rate autoon) s = .next
        { s with
          slots := s.slots.map fun sl =>
            { sl with
              policy.autoPower := autoon
              pins.debounce := if sl.pins.prsnt = true then some 20000#32 else none
              pins.startUp := sl.pins.prsnt }
          scorer :=
            { timeout := 32, stray := 8, malformed := 16, errant := 16, linkDown := 64, warn := 64, fence := 128
              decayEpoch := 100, decayTimer := some 100000#32 }
          monitor := { channel := 0, convEnd := some 25#32, discard := false, afterOff := true }
          link.fast := rate
          elapsed := 0
          porHeld := false })
    ∧ (s.porHeld = false → exec (.endOfPowerOnReset rate autoon) s = .next s)

/-- R202: an assertion of CRESET# clears the management link (R179), the report queue and the scan with the run counts, and leaves all
else; a reply in transmission is cut off; ALERT# is released with the queue (R198). Asserted again while it is held it has no further
effect, and its release only ends the hold. That what has been sent stays on record, the cut reply with it, is the model's own (log 9). -/
def Obligations.ControlResetClearsThreeBlocks : Prop :=
  (∀ s : State, s.porHeld = false → s.cresetHeld = false →
    let cut : List SentFrame :=
      match s.link.inProcess with
      | some p => if p.started = true then [{ bytes := frameOf p.reply, whole := false }] else []
      | none => []
    let t : State := { s.clearsControl (s.link.sent ++ cut) with cresetHeld := true }
    exec .controlReset s = .next t ∧ t.alert = false)
  ∧ (∀ s : State, s.cresetHeld = true → exec .controlReset s = .next s)
  ∧ ∀ s : State, exec .cresetRelease s = .next { s with cresetHeld := false }

/-! ### Host requests -/

/-- R6, R8, R20, R23: at an open gate, with the card link UP and nothing before it, a posted host request is forwarded to the card and
nothing else happens; a non-posted one that meets no tag collision, stands below its quota and finds a free pool entry is admitted: one
entry at the tail of the slot's list, with the arrival time and the deadline one slot timeout later, and the request forwarded. -/
def Obligations.HostRequestPassesAnOpenGate : Prop :=
  ∀ (s : State) (i : SlotId) (r : Request), r.wf = true → s.porHeld = false →
    (s.slot i).hostClear → (s.slot i).serving → (s.slot i).chan.linkUp = true →
    let told := (s.slot i).tellsCard (.request .host r)
    (r.posted = true → exec (.hostRequest i r) s = .next (s.setSlot i told))
    ∧ (r.posted = false → (∀ e ∈ (s.slot i).entries, e.tag ≠ r.tag) →
        (s.slot i).entries.length < (s.slot i).policy.quota → 0 < s.poolFree →
        exec (.hostRequest i r) s = .next (s.setSlot i
          { told with
            entries := (s.slot i).entries ++
              [{ tag := r.tag
                 kind := r.kind.entryKind.1
                 owed := r.kind.entryKind.2
                 delivered := 0
                 arrival := s.now
                 deadline := s.now + BitVec.ofNat 32 (s.slot i).policy.slotTimeout }] }))

/-- R24: a request whose tag is pending is refused at once: ABORT on the host side and a PROTOCOL report with reason TAG_COLLISION and the
tag as its value; no weight, no counter, no entry. R70: the same in FENCING. The model's readings: a report's stamp is taken after the
count's step (log 34). -/
def Obligations.PendingTagIsRefused : Prop :=
  ∀ (s : State) (i : SlotId) (r : Request), r.wf = true → r.posted = false → s.porHeld = false →
    (s.slot i).hostClear → ((s.slot i).serving ∧ (s.slot i).chan.linkUp = true ∨ (s.slot i).ctl.state = .fencing) →
    (∃ e ∈ (s.slot i).entries, e.tag = r.tag) →
    exec (.hostRequest i r) s = .next
      ((s.setSlot i ((s.slot i).tellsHost (.completion (Completion.bare r.tag .abort)))).reporting
        (s.note .protocol i (some .tagCollision) (some r.tag.toNat)))

/-- R8, R17: behind an occupied downstream hold, or behind earlier requests, a host request stays in the link's buffering; while the
upstream value is IN-RESET none arrives (log 8). R9, R25: a host request that finds its quota used up or the card link DOWN, or that comes
in RESTORING, enters the downstream hold with its arrival time and a deadline one slot timeout later; one that finds the pool empty joins
the pool wait list as well. -/
def Obligations.HostRequestIsHeld : Prop :=
  (∀ (s : State) (i : SlotId) (r : Request), r.wf = true → s.porHeld = false →
    ((s.slot i).chan.inReset = true → exec (.hostRequest i r) s = .next s)
    ∧ ((s.slot i).chan.inReset = false → ((s.slot i).chan.hold ≠ none ∨ (s.slot i).chan.hostWaiting ≠ []) →
        exec (.hostRequest i r) s = .next
          (s.setSlot i { s.slot i with chan.hostWaiting := (s.slot i).chan.hostWaiting ++ [r] })))
  ∧ ∀ (s : State) (i : SlotId) (r : Request), r.wf = true → s.porHeld = false → (s.slot i).hostClear →
    let held := s.setSlot i
      { s.slot i with
        chan.hold := some
          { req := r, arrival := s.now, deadline := s.now + BitVec.ofNat 32 (s.slot i).policy.slotTimeout } }
    ((s.slot i).serving ∧ (s.slot i).chan.linkUp = false ∨ (s.slot i).ctl.state = .restoring →
      exec (.hostRequest i r) s = .next held)
    ∧ ((s.slot i).serving → (s.slot i).chan.linkUp = true → r.posted = false →
        (∀ e ∈ (s.slot i).entries, e.tag ≠ r.tag) →
        ((s.slot i).policy.quota ≤ (s.slot i).entries.length → exec (.hostRequest i r) s = .next held)
        ∧ ((s.slot i).entries.length < (s.slot i).policy.quota → s.poolFree = 0 →
            exec (.hostRequest i r) s = .next
              { held with poolWait := if i ∈ s.poolWait then s.poolWait else s.poolWait ++ [i] }))

/-- R67, R68, R69, R121, R122: a host request that arrives at a closed gate outside RESTORING is absorbed by its kind: posted ones are
dropped and counted; reads of memory and I/O and I/O writes are answered by fill mode; configuration requests are served by the image. In
FENCING this holds of a non-posted request for a tag that is not pending (R70). That a configuration read in EMPTY of an offset written
there is answered with the entry's value is the model's choice (log 36). -/
def Obligations.HostRequestIsAbsorbed : Prop :=
  ∀ (s : State) (i : SlotId) (r : Request), r.wf = true → s.porHeld = false → (s.slot i).hostClear →
    ¬ (s.slot i).serving → (s.slot i).ctl.state ≠ .restoring →
    ((s.slot i).ctl.state = .fencing → r.posted = false → ∀ e ∈ (s.slot i).entries, e.tag ≠ r.tag) →
    let sl := s.slot i
    let answered := fun c => s.setSlot i (sl.tellsHost (.completion c)).absorbedOne
    (r.posted = true → exec (.hostRequest i r) s = .next (s.setSlot i sl.droppedOne))
    ∧ (∀ a n, r.kind = .memRead a n → exec (.hostRequest i r) s = .next (answered (fillCompletion sl.policy.fill r.tag n)))
    ∧ (∀ a, r.kind = .ioRead a → exec (.hostRequest i r) s = .next (answered (fillCompletion sl.policy.fill r.tag 1)))
    ∧ (∀ a m d, r.kind = .ioWrite a m d →
        exec (.hostRequest i r) s = .next (answered (fillCompletion sl.policy.fill r.tag 0)))
    ∧ (∀ o, r.kind = .cfgRead o →
        exec (.hostRequest i r) s = .next
          (answered { tag := r.tag, status := .success, data := [sl.configRead o], final := true }))
    ∧ ∀ o m d, r.kind = .cfgWrite o m d →
        exec (.hostRequest i r) s = .next (s.setSlot i
          { (sl.tellsHost (.completion
              (Completion.bare r.tag (if (sl.store.record s.filter o d m).2 = true then .success else .abort)))).absorbedOne with
            store := (sl.store.record s.filter o d m).1 })

/-! ### The restore image and the permit check as functions -/

/-- R118: a merge replaces the bytes the write's mask names and keeps the others; the mask becomes the union. -/
def Obligations.MergeReplacesTheNamedBytes : Prop :=
  ∀ (st : ImageStore) (o : Offset) (v : Dword) (m : ByteMask),
    (st.mergeAt o v m).entries.length = st.entries.length
    ∧ (∀ (n : Nat) (e : ImgEntry), st.entries[n]? = some e → e.offset ≠ o → (st.mergeAt o v m).entries[n]? = some e)
    ∧ ∀ (n : Nat) (e : ImgEntry), st.entries[n]? = some e → e.offset = o →
        ∃ e', (st.mergeAt o v m).entries[n]? = some e' ∧ e'.offset = o ∧ e'.mask = e.mask ||| m
          ∧ ∀ b : Fin 4, e'.value.extractLsb' (8 * b.val) 8 =
              if m.getLsbD b.val = true then v.extractLsb' (8 * b.val) 8 else e.value.extractLsb' (8 * b.val) 8

/-- R119: with room a new offset is appended at the tail, its bytes outside the mask 0x00; with 48 entries nothing is recorded and the
incomplete mark is set. -/
def Obligations.NewOffsetIsAppendedWithRoom : Prop :=
  ∀ (st : ImageStore) (f : List Span) (o : Offset) (v : Dword) (m : ByteMask), o ≠ 0 → inFilter f o = false →
    (∀ e ∈ st.entries, e.offset ≠ o) →
    (st.entries.length < 48 → ∃ e, st.record f o v m = ({ st with entries := st.entries ++ [e] }, true)
        ∧ e.offset = o ∧ e.mask = m
        ∧ ∀ b : Fin 4, e.value.extractLsb' (8 * b.val) 8 =
            if m.getLsbD b.val = true then v.extractLsb' (8 * b.val) 8 else 0x00#8)
    ∧ (st.entries.length = 48 → st.record f o v m = ({ st with incomplete := true }, false))

/-- R117, R122: dword 0 and the capture filter are kept out of the image, and an offset the image holds is merged. R121: an absorbed
configuration read returns the identity at dword 0 (all-ones while absent), and elsewhere the entry's bytes with 0xFF outside its mask, or
all-ones without an entry. That this holds in EMPTY as well, of an offset written there, is the model's choice (log 36). -/
def Obligations.ImageTakesAndServesConfiguration : Prop :=
  (∀ (st : ImageStore) (f : List Span) (o : Offset) (v : Dword) (m : ByteMask),
    (o = 0 → st.record f o v m = (st, true))
    ∧ ((∃ r ∈ f, r.base ≤ o.toNat ∧ o.toNat ≤ r.limit) → st.record f o v m = (st, true))
    ∧ (o ≠ 0 → (∀ r ∈ f, o.toNat < r.base ∨ r.limit < o.toNat) → (∃ e ∈ st.entries, e.offset = o) →
        st.record f o v m = (st.mergeAt o v m, true)))
  ∧ ∀ (sl : Slot) (o : Offset),
    (o = 0 → sl.configRead o = sl.chan.identity.getD 0xFFFFFFFF#32)
    ∧ (o ≠ 0 → (∀ e ∈ sl.store.entries, e.offset ≠ o) → sl.configRead o = 0xFFFFFFFF#32)
    ∧ (o ≠ 0 → sl.store.sound → ∀ e ∈ sl.store.entries, e.offset = o → ∀ b : Fin 4,
        (sl.configRead o).extractLsb' (8 * b.val) 8 =
          if e.mask.getLsbD b.val = true then e.value.extractLsb' (8 * b.val) 8 else 0xFF#8)

/-- R151, R152, R153: a span past the top of the address space fails OUTSIDE; a span that meets a defined deny range fails DENIED,
whatever the windows are; otherwise it passes with none of the slot's windows defined or inside one single defined window, and fails
OUTSIDE without. -/
def Obligations.PermitCheckDecides : Prop :=
  ∀ (s : State) (i : SlotId) (addr : BitVec 48) (len : Nat), 1 ≤ len → len ≤ 1024 →
    let last := addr.toNat + 4 * len - 1
    let firstPage := addr.toNat / 4096
    let lastPage := last / 4096
    let windows := (s.slot i).permit.windows
    let meets := fun k : Fin 2 => s.deny[k].any (fun r => decide (r.base ≤ lastPage ∧ firstPage ≤ r.limit)) = true
    let holds := fun k : Fin 4 => windows[k].any (fun w => decide (w.base ≤ firstPage ∧ lastPage ≤ w.limit)) = true
    (2 ^ 48 - 1 < last → s.permitCheck i addr len = some .outside)
    ∧ (last ≤ 2 ^ 48 - 1 →
        ((∃ k, meets k) → s.permitCheck i addr len = some .denied)
        ∧ ((∀ k, ¬ meets k) →
            ((∀ k : Fin 4, windows[k] = none) ∨ (∃ k, holds k) → s.permitCheck i addr len = none)
            ∧ ((∃ k : Fin 4, windows[k] ≠ none) → (∀ k, ¬ holds k) → s.permitCheck i addr len = some .outside)))

/-- R164: with S the step times the quantity's denominator, the code is the number c for which c is at most the quantity over the step
plus one half and c + 1 is above it, clamped to 0..4095; the steps are 4 mV, 1 mV and 5 mA. -/
def Obligations.RailCodeRounds : Prop :=
  railStep 0 = 4 ∧ railStep 1 = 1 ∧ railStep 2 = 5
  ∧ ∀ (q : Quantity) (step : Nat), 0 < step →
    let S : Int := step * (q.den + 1)
    (2 * q.num + S < 0 → railCode q step = 0)
    ∧ (2 * S * 4096 ≤ 2 * q.num + S → railCode q step = 4095)
    ∧ ∀ c : Nat, c ≤ 4095 → 2 * S * c ≤ 2 * q.num + S → 2 * q.num + S < 2 * S * (c + 1) → railCode q step = c

/-! ### Expiries of waiting requests, and card completions -/

/-- R10: at its deadline a held request is answered by fill mode for its whole length, or dropped if posted, and leaves the hold. R34,
R35: an entry at its deadline is answered by fill mode for the dwords still owed and leaves the list; it is offered along the pool wait
list, and then what stands in the slot's own hold is offered (R25, R26, R33; the statement FreedEntryGoesToTheWaitingSlot says who takes
it). In ONLINE and SUSPECT the timeout weight follows, and the slot is evaluated (R46, R50); elsewhere none is added (R52). In FENCING the
drain goes on while other entries are left, and ends with the last (R63). The model's readings: a waiting slot that may not proceed is
passed over (log 10), a collision at a re-offer is refused (log 11), the policy of a stay in ISOLATED is state (log 32), a report's stamp
is taken after the count's step (log 34). -/
def Obligations.ExpiriesAnswerByFillMode : Prop :=
  (∀ (s : State) (i : SlotId) (h : Held), s.porHeld = false → (s.slot i).chan.hold = some h → h.deadline = s.now →
    let sl := s.slot i
    let left : Slot := { sl with chan.hold := none }
    let weighed := fun x : Slot =>
      (({ s with poolWait := s.poolWait.filter fun j => j ≠ i } : State).setSlot i x).weighs i s.scorer.timeout .timeout
    (h.req.posted = true → exec (.holdExpiry i) s = .next (weighed left.droppedOne))
    ∧ (h.req.posted = false → exec (.holdExpiry i) s = .next (weighed
        (left.tellsHost (.completion (fillCompletion sl.policy.fill h.req.tag h.req.kind.fillDwords))).absorbedOne)))
  ∧ ∀ (s : State) (i : SlotId) (e : Entry) (before after : List Entry), s.porHeld = false →
    (s.slot i).entries = before ++ e :: after → (∀ x ∈ before, x.tag ≠ e.tag) → e.deadline = s.now →
    let sl := s.slot i
    let left := s.frees i
      { (sl.tellsHost (.completion (fillCompletion sl.policy.fill e.tag e.fillDwords))) with
        entries := before ++ after }
    (sl.serving →
      exec (.entryExpiry i e.tag) s = .next (left.weighs i s.scorer.timeout .timeout))
    ∧ (sl.ctl.state = .fencing →
        (before ++ after ≠ [] → exec (.entryExpiry i e.tag) s = .next left)
        ∧ (before ++ after = [] → exec (.entryExpiry i e.tag) s = .next (left.leavesFencing i)))

/-- R29 to R32: a completion that ends an entry is forwarded to the host unchanged and the entry leaves the list; it is offered along the
pool wait list, and then what stands in the slot's own hold is offered (R25, R26, R33; the statement FreedEntryGoesToTheWaitingSlot says
who takes it); a configuration read of dword 0 sets the identity (R13) and a confirmed configuration write is recorded (R117); the last
entry's end in FENCING ends the drain (R63). A SUCCESS completion of a read without the final flag that carries some of the dwords still
owed is forwarded, and the dwords delivered increase (R29). The model's readings: a waiting slot that may not proceed is passed over (log
10), a collision at a re-offer is refused (log 11), the identity comes from the one dword that ends the read (log 14), the policy of a
stay in ISOLATED is state (log 32), a report's stamp is taken after the count's step (log 34). -/
def Obligations.CompletionMeetsItsEntry : Prop :=
  ∀ (s : State) (i : SlotId) (c : Completion) (e : Entry) (before after : List Entry), c.wf = true → s.porHeld = false →
    (s.slot i).chan.linkUp = true → (s.slot i).entries = before ++ e :: after → c.tag = e.tag →
    ((s.slot i).serving ∨ (s.slot i).ctl.state = .fencing) →
    let sl := s.slot i
    let left : Slot := { sl.tellsHost (.completion c) with entries := before ++ after }
    let done := exec (.cardCompletion i .host c) s
    let ends := fun x : Slot => done = .next (s.frees i x)
    ((∀ x ∈ before, x.tag ≠ e.tag) →
      (sl.serving ∨ before ++ after ≠ [] →
        (c.status = .unsupported ∨ c.status = .abort → ends left)
        ∧ (c.status = .retry → (∃ o, e.kind = .cfgRead o) ∨ (∃ o v m, e.kind = .cfgWrite o v m) → ends left)
        ∧ (c.status = .success → c.final = true →
            (e.kind = .memRead ∨ e.kind = .ioRead → e.delivered + c.data.length = e.owed → ends left)
            ∧ (e.kind = .ioWrite → c.data = [] → ends left)
            ∧ (∀ o d, e.kind = .cfgRead o → e.owed = 1 → e.delivered = 0 → c.data = [d] →
                ends (if o = 0 ∧ d ≠ 0xFFFFFFFF#32 then { left with chan.identity := some d } else left))
            ∧ (∀ o v m, e.kind = .cfgWrite o v m → c.data = [] →
                ends { left with store := (sl.store.record s.filter o v m).1 })))
      ∧ (sl.ctl.state = .fencing → before ++ after = [] → e.EndedBy c →
          done = .next ((s.frees i (left.takes s.filter e c)).leavesFencing i)))
    ∧ ((∀ x ∈ before ++ after, x.tag ≠ e.tag) →
        (e.kind = .memRead ∨ e.kind = .ioRead ∨ ∃ o, e.kind = .cfgRead o) →
        c.status = .success → c.final = false → c.data ≠ [] → e.delivered + c.data.length ≤ e.owed →
        done = .next (s.setSlot i
          { sl.tellsHost (.completion c) with
            entries := before ++ { e with delivered := e.delivered + c.data.length } :: after }))

/-- R26, R33: an entry that slot `i` frees, and becomes `left`, is offered along the pool wait list from its head. A slot on the list that
is out of service, or whose card link is not UP, keeps its place (log 10); one whose held request, which meets no tag collision, finds the
quota of its slot reached leaves the list, and the offer goes on. The first whose held request meets no tag collision and stands below its
quota has that request admitted with the arrival time and the deadline it has: it leaves the hold, and the slot leaves the list; nobody
behind it is asked. If nobody takes the entry the free count keeps it. Then what stands in the slot's own hold is offered, unless the slot
waits for the pool (R25). So it goes with an entry of any kind that a completion ends, with what the completion leaves behind (R13, R32),
and with one at its deadline, where the timeout weight follows (R35); in FENCING the slot leaves with its last entry (R63). A sweep (R37)
and an upstream reset (R40) free the entries that they remove one by one by the same State.frees. The model's readings: a collision at a
re-offer is refused (log 11), the identity comes from the one dword that ends the read (log 14), the policy of a stay in ISOLATED is state
(log 32), a report's stamp is taken after the count's step (log 34). -/
def Obligations.FreedEntryGoesToTheWaitingSlot : Prop :=
  ∀ (s t : State) (i : SlotId) (left : Slot) (pre rest : List SlotId),
    let freed := s.setSlot i left
    let mayProceed := fun k : SlotId => (freed.slot k).serving ∧ (freed.slot k).chan.linkUp = true
    let waits := fun (k : SlotId) (h : Held) => mayProceed k ∧ (freed.slot k).chan.hold = some h ∧ h.req.posted = false
      ∧ ∀ x ∈ (freed.slot k).entries, x.tag ≠ h.req.tag
    s.poolWait = pre ++ rest →
    (∀ k ∈ pre, ¬ mayProceed k
      ∨ (∃ h, waits k h) ∧ (freed.slot k).policy.quota ≤ (freed.slot k).entries.length) →
    (rest = [] ∧ t = { freed with poolWait := pre.filter fun k => ¬ mayProceed k }
      ∨ ∃ (j : SlotId) (h : Held) (behind : List SlotId), rest = j :: behind ∧ waits j h
          ∧ (freed.slot j).entries.length < (freed.slot j).policy.quota ∧ 0 < freed.poolFree
          ∧ t = ({ freed with
                poolWait := s.poolWait.filter fun k => k ≠ j ∧ ¬ (k ∈ pre ∧ mayProceed k) } : State).setSlot j
              { ((freed.slot j).tellsCard (.request .host h.req)) with
                chan.hold := none
                entries := (freed.slot j).entries ++
                  [{ tag := h.req.tag
                     kind := h.req.kind.entryKind.1
                     owed := h.req.kind.entryKind.2
                     delivered := 0
                     arrival := h.arrival
                     deadline := h.deadline }] }) →
    let own := if i ∈ t.poolWait then t else t.reoffersHold i
    s.frees i left = own
    ∧ ∀ (e : Entry) (before after : List Entry), s.porHeld = false →
        ((s.slot i).serving ∨ (s.slot i).ctl.state = .fencing) →
        (s.slot i).entries = before ++ e :: after → (∀ x ∈ before, x.tag ≠ e.tag) →
        let last := (s.slot i).ctl.state = .fencing ∧ before ++ after = []
        (∀ c : Completion, c.wf = true → (s.slot i).chan.linkUp = true → c.tag = e.tag → e.EndedBy c →
          left = ({ (s.slot i).tellsHost (.completion c) with entries := before ++ after } : Slot).takes s.filter e c →
          exec (.cardCompletion i .host c) s = .next (if last then own.leavesFencing i else own))
        ∧ (e.deadline = s.now →
            left = { (s.slot i).tellsHost (.completion (fillCompletion (s.slot i).policy.fill e.tag e.fillDwords)) with
                      entries := before ++ after } →
            exec (.entryExpiry i e.tag) s = .next
              (if last then own.leavesFencing i
              else if (s.slot i).serving then own.weighs i s.scorer.timeout .timeout else own))

/-- R28, R30, R46, R50: a stray completion adds the stray weight, and one that does not fit its entry the malformed weight, and the
completion is dropped. In FENCING neither adds weight (R52). R27, R5: a completion for the host at a slot outside ONLINE, SUSPECT and
FENCING changes nothing. R126: nor does a completion for a replay write outside RESTORING, nor in RESTORING one with no write outstanding,
with another tag, or of status SUCCESS with data or with its final flag clear; the outstanding write stands. R14, section 1.6 and the
model's reading of them for every state (log 8): no completion arrives while the card link is DOWN. The model's readings: a waiting slot
that may not proceed is passed over (log 10), a collision at a re-offer is refused (log 11), the policy of a stay in ISOLATED is state
(log 32), a report's stamp is taken after the count's step (log 34). -/
def Obligations.UnfitCompletionsAreDropped : Prop :=
  (∀ (s : State) (i : SlotId) (dest : Addressee) (c : Completion), c.wf = true → s.porHeld = false →
    ((s.slot i).chan.linkUp = false
      ∨ (dest = .host ∧ ¬ (s.slot i).serving ∧ (s.slot i).ctl.state ≠ .fencing)
      ∨ (dest = .part ∧ (s.slot i).ctl.state ≠ .restoring)
      ∨ (dest = .part ∧ ∀ o, (s.slot i).store.outstanding = some o →
          o.tag ≠ c.tag ∨ (c.status = .success ∧ (c.data ≠ [] ∨ c.final = false)))) →
    exec (.cardCompletion i dest c) s = .next s)
  ∧ ∀ (s : State) (i : SlotId) (c : Completion), c.wf = true → s.porHeld = false → (s.slot i).chan.linkUp = true →
    let sl := s.slot i
    let done := exec (.cardCompletion i .host c) s
    ((∀ e ∈ sl.entries, e.tag ≠ c.tag) →
      (sl.serving → done = .next (s.weighs i s.scorer.stray .stray))
      ∧ (sl.ctl.state = .fencing → done = .next s))
    ∧ ∀ e before after, sl.entries = before ++ e :: after → (∀ x ∈ before, x.tag ≠ e.tag) → c.tag = e.tag →
        e.MalformedBy c →
        (sl.serving → done = .next (s.weighs i s.scorer.malformed .malformed))
        ∧ (sl.ctl.state = .fencing → done = .next s)

/-- R46, R50, R51, R54, R62: the weight of a stray or malformed completion, of a LINK_DOWN, of a held request or an entry at its deadline,
or of a card write that fails the permit check, is added to the score up to 255. A score at or above the fence threshold makes a HANG
report with the event's kind and the score, and fences the slot with reason SCORE and disposition RECOVER, the holds emptied (R11); with
nothing pending, or a drain of 0, the slot leaves FENCING at once (R62, R63). Otherwise one at or above the warn threshold moves an ONLINE
slot to SUSPECT, and one below half of it moves a SUSPECT slot to ONLINE, each with a STATE report whose value is the score, the gate
open; else only the score changes. The permit check's failure is in full in the statement FailingCardRequestIsErrant. The model's choices:
what waits in the link's buffering on the card's side is lost at LINK_DOWN (log 7), and a LINK_DOWN of a link already DOWN is taken in
full again (log 29). The model's readings: a waiting slot that may not proceed is passed over (log 10), a collision at a re-offer is
refused (log 11), the policy of a stay in ISOLATED is state (log 32), a report's stamp is taken after the count's step (log 34). -/
def Obligations.ThresholdsMoveTheSlot : Prop :=
  ∀ (s hit : State) (i : SlotId) (c : Instr) (weight : Nat) (why : Reason), s.porHeld = false → (s.slot i).serving →
    let sl := s.slot i
    (((∃ x, c = .cardCompletion i .host x ∧ x.wf = true ∧ ∀ e ∈ sl.entries, e.tag ≠ x.tag)
          ∧ sl.chan.linkUp = true ∧ weight = s.scorer.stray ∧ why = .stray ∧ hit = s)
      ∨ ((∃ x before e after, c = .cardCompletion i .host x ∧ x.wf = true ∧ sl.entries = before ++ e :: after
            ∧ (∀ y ∈ before, y.tag ≠ e.tag) ∧ x.tag = e.tag ∧ e.MalformedBy x)
          ∧ sl.chan.linkUp = true ∧ weight = s.scorer.malformed ∧ why = .malformed ∧ hit = s)
      ∨ (c = .linkDown i ∧ weight = s.scorer.linkDown ∧ why = .linkDown
          ∧ hit = s.setSlot i
              { sl with
                chan.linkUp := false, chan.cardWaiting := []
                ctl.graceTimer := some (s.now + BitVec.ofNat 32 (1000 * sl.policy.linkGrace)) })
      ∨ ((∃ h, c = .holdExpiry i ∧ sl.chan.hold = some h ∧ h.deadline = s.now
            ∧ hit = ({ s with poolWait := s.poolWait.filter fun j => j ≠ i } : State).setSlot i
                (if h.req.posted = true then ({ sl with chan.hold := none } : Slot).droppedOne
                else (({ sl with chan.hold := none } : Slot).tellsHost
                  (.completion (fillCompletion sl.policy.fill h.req.tag h.req.kind.fillDwords))).absorbedOne))
          ∧ weight = s.scorer.timeout ∧ why = .timeout)
      ∨ ((∃ before e after, c = .entryExpiry i e.tag ∧ sl.entries = before ++ e :: after ∧ (∀ x ∈ before, x.tag ≠ e.tag)
            ∧ e.deadline = s.now
            ∧ hit = s.frees i
                { (sl.tellsHost (.completion (fillCompletion sl.policy.fill e.tag e.fillDwords))) with
                  entries := before ++ after })
          ∧ weight = s.scorer.timeout ∧ why = .timeout)
      ∨ ((∃ r a d x, c = .cardRequest i r ∧ r.wf = true ∧ sl.cardClear ∧ r.kind = .memWrite a d
            ∧ s.permitCheck i a d.length = some x
            ∧ hit = (let t := s.setSlot i { sl with permit.errantReported := true }
                if sl.permit.errantReported = true then t
                else t.reporting (s.note .errant i (some x) (some (a.toNat / 4096)))))
          ∧ weight = s.scorer.errant ∧ why = .errant)) →
    weight ≠ 0 →
    let x := hit.slot i
    let score := min (x.ctl.score + weight) 255
    let scored := hit.setSlot i { x with ctl.score := score }
    let moves := fun st : SlotState => exec c s = .next
      ((hit.moved i
        { x with
          chan.gateOpen := true
          ctl := { x.ctl.into st with score := score, lastReported := st } }).reporting
        (hit.stateNote i st (some .score) (some score)))
    (s.scorer.fence ≤ score →
      exec c s = .next ((scored.reporting (s.note .hang i (some why) (some score))).fences i .score .recover))
    ∧ (score < s.scorer.fence → sl.ctl.state = .online → s.scorer.warn ≤ score → moves .suspect)
    ∧ (score < s.scorer.fence → sl.ctl.state = .suspect → score < s.scorer.warn / 2 → moves .online)
    ∧ (s.scorer.quietAt sl.ctl.state score → exec c s = .next scored)

/-- R124 to R127: a SUCCESS completion without data confirms the outstanding replay write: the entries replayed increase, and the entry at
the next cursor position is written under the next replay tag with a deadline one slot timeout later. A RETRY makes the write absent and
starts the re-send timer for 1 ms; at its expiry the same entry is written again with a new tag and deadline. The model's readings: a
replay write carries value and mask of its entry (log 17), the replay sequence is state (log 27). -/
def Obligations.ReplayWritesFollowOneAnother : Prop :=
  ∀ (s : State) (i : SlotId) (n : Nat) (e : ImgEntry), s.porHeld = false → (s.slot i).ctl.state = .restoring →
    let sl := s.slot i
    let writes := fun x : Slot =>
      { (x.tellsCard (.request .part { tag := x.store.nextTag, kind := .cfgWrite e.offset e.mask e.value })) with
        store.outstanding :=
          some { tag := x.store.nextTag, deadline := s.now + BitVec.ofNat 32 sl.policy.slotTimeout }
        store.nextTag := x.store.nextTag + 1 }
    (∀ o, sl.chan.linkUp = true → sl.store.outstanding = some o → sl.store.cursor = some n →
        sl.store.sequence[n + 1]? = some e →
        exec (.cardCompletion i .part { tag := o.tag, status := .success, data := [], final := true }) s =
          .next (s.setSlot i (writes
            { sl with
              store.outstanding := none, store.replayed := sl.store.replayed + 1, store.cursor := some (n + 1) })))
    ∧ (∀ o, sl.chan.linkUp = true → sl.store.outstanding = some o →
        exec (.cardCompletion i .part { tag := o.tag, status := .retry, data := [], final := true }) s =
          .next (s.setSlot i
            { sl with store.outstanding := none, store.resendTimer := some (s.now + 1000#32) }))
    ∧ (sl.store.resendTimer = some s.now → sl.store.cursor = some n → sl.store.sequence[n]? = some e →
        exec (.resendTimerExpiry i) s = .next (s.setSlot i (writes { sl with store.resendTimer := none })))

/-- R129, R131, R104: the confirmation of the last replay write, or of the one that was outstanding when the image was cleared, ends the
replay and takes the slot to ONLINE: the gate opens, a held request is offered (R11), score and attempt count become 0, the ghost period
begins if a ghost is held (R76), a STATE report with the attempt count is made, and in a recovery, not after the upstream path or a
bring-up, a RESTORED report with the entries replayed and the incomplete mark, which is then clear. So does the re-send timer's expiry
with nothing left to write: a write answered RETRY after a clearing of the image lets the 1 ms run, which is the model's reading of R131
(log 25). The model's readings: a collision at a re-offer is refused (log 11), the replay sequence is state (log 27), a report's stamp is
taken after the count's step (log 34). -/
def Obligations.LastReplayWriteRestores : Prop :=
  ∀ (s : State) (i : SlotId) (n : Nat), s.porHeld = false → (s.slot i).ctl.state = .restoring →
    let sl := s.slot i
    sl.store.cursor = some n →
    (sl.store.sequence.length ≤ n →
      sl.store.resendTimer = some s.now →
      exec (.resendTimerExpiry i) s = .next ((s.setSlot i { sl with store := sl.store.stopped }).goesOnline i))
    ∧ (sl.store.sequence.length ≤ n + 1 → sl.chan.linkUp = true → ∀ o, sl.store.outstanding = some o →
      exec (.cardCompletion i .part { tag := o.tag, status := .success, data := [], final := true }) s =
        .next ((s.setSlot i
          { sl with store := { sl.store.stopped with replayed := sl.store.replayed + 1 } }).goesOnline i))

/-! ### Card requests and host completions -/

/-- R71: at a closed gate a non-posted card request is answered UNSUPPORTED toward the card, and a posted one is discarded; nothing else
changes. -/
def Obligations.CardRequestIsBlockedAtAClosedGate : Prop :=
  ∀ (s : State) (i : SlotId) (r : Request), r.wf = true → s.porHeld = false → (s.slot i).cardClear →
    ¬ (s.slot i).serving →
    (r.posted = false → exec (.cardRequest i r) s = .next
      (s.setSlot i ((s.slot i).tellsCard (.completion (Completion.bare r.tag .unsupported)))))
    ∧ (r.posted = true → exec (.cardRequest i r) s = .next s)

/-- R154: a card request that passes the permit check is forwarded to the host unchanged; a memory read joins the outbound set as a live
tag, a memory write and a message join nothing; no weight, no report, no mark. R73: the read's tag was not held and the set had room. -/
def Obligations.PassingCardRequestIsForwarded : Prop :=
  ∀ (s : State) (i : SlotId) (r : Request), r.wf = true → s.porHeld = false → (s.slot i).cardClear → (s.slot i).serving →
    let sl := s.slot i
    (∀ a n, r.kind = .memRead a n → s.permitCheck i a n = none → (∀ t ∈ sl.outbound.tags, t.tag ≠ r.tag) →
      sl.outbound.tags.length < 32 →
      exec (.cardRequest i r) s = .next (s.setSlot i
        { sl.tellsHost (.request r) with outbound.tags := sl.outbound.tags ++ [{ tag := r.tag, ghost := false }] }))
    ∧ (∀ a d, r.kind = .memWrite a d → s.permitCheck i a d.length = none →
      exec (.cardRequest i r) s = .next (s.setSlot i (sl.tellsHost (.request r))))
    ∧ (r.kind = .message → exec (.cardRequest i r) s = .next (s.setSlot i (sl.tellsHost (.request r))))

/-- R155, R156, R157: a card request that fails the permit check does not reach the host: a read is answered UNSUPPORTED toward the card,
a write is discarded; the first failure of an epoch makes an ERRANT report with the reason and the first page and sets the mark; the
errant-DMA weight is added, and the slot is evaluated (R46, R50). The model's readings: a waiting slot that may not proceed is passed over
(log 10), a collision at a re-offer is refused (log 11), the policy of a stay in ISOLATED is state (log 32), a report's stamp is taken
after the count's step (log 34). -/
def Obligations.FailingCardRequestIsErrant : Prop :=
  ∀ (s : State) (i : SlotId) (r : Request) (a : BitVec 48) (n : Nat) (why : Reason), r.wf = true → s.porHeld = false →
    (s.slot i).cardClear → (s.slot i).serving →
    let sl := s.slot i
    (r.kind = .memRead a n ∧ (∀ t ∈ sl.outbound.tags, t.tag ≠ r.tag) ∧ sl.outbound.tags.length < 32
      ∨ ∃ d : List Dword, r.kind = .memWrite a d ∧ d.length = n) →
    s.permitCheck i a n = some why →
    exec (.cardRequest i r) s = .next (s.turnsErrant i r a why)

/-- R3: a card configuration or I/O request is answered UNSUPPORTED toward the card in every state, and nothing else happens. R73, R12:
with the gate open a card memory read whose tag is live is answered UNSUPPORTED with a PROTOCOL report, reason CARD_TAG; one whose tag is
a ghost, or that finds 32 tags held, waits in the card-side hold. R8: a request behind an occupied hold, or behind earlier ones, stays in
the link. R14 and the model's reading of it for every state (log 8): no card request arrives while the card link is DOWN. The model's
readings: a report's stamp is taken after the count's step (log 34). -/
def Obligations.CardRequestIsTurnedBackOrHeld : Prop :=
  ∀ (s : State) (i : SlotId) (r : Request), r.wf = true → s.porHeld = false →
    let sl := s.slot i
    let done := exec (.cardRequest i r) s
    let turnedBack := s.setSlot i (sl.tellsCard (.completion (Completion.bare r.tag .unsupported)))
    let waits := done = .next (s.setSlot i { sl with chan.cardHold := some r })
    (sl.chan.linkUp = false → done = .next s)
    ∧ (sl.cardClear →
      ((∃ a, r.kind = .ioRead a) ∨ (∃ a m d, r.kind = .ioWrite a m d) ∨ (∃ o, r.kind = .cfgRead o)
        ∨ (∃ o m d, r.kind = .cfgWrite o m d) → done = .next turnedBack)
      ∧ ∀ a n, r.kind = .memRead a n → sl.serving →
          (∀ before after ghost, sl.outbound.tags = before ++ { tag := r.tag, ghost := ghost } :: after →
            (∀ t ∈ before, t.tag ≠ r.tag) →
            (ghost = true → waits)
            ∧ (ghost = false → done = .next
                (turnedBack.reporting (s.note .protocol i (some .cardTag) (some r.tag.toNat)))))
          ∧ ((∀ t ∈ sl.outbound.tags, t.tag ≠ r.tag) → 32 ≤ sl.outbound.tags.length → waits))
    ∧ (sl.chan.linkUp = true → (sl.chan.cardHold ≠ none ∨ sl.chan.cardWaiting ≠ []) →
        done = .next (s.setSlot i { sl with chan.cardWaiting := sl.chan.cardWaiting ++ [r] }))

/-- R74, R75: with the gate open a host completion to a live tag is forwarded to the card, one to a ghost is absorbed, and one to no tag
makes a PROTOCOL report, reason HOST_STRAY; with the gate closed none is forwarded and none reported. A final one takes its tag out of the
set. R76: at the ghost deadline every ghost leaves the set and the deadline becomes absent; the live tags stay. Where a tag leaves the set
in service the card-side hold is here empty; the statement HeldCardReadIsRetried says what follows otherwise. Section 1.7 and the model's
reading of it (log 8): no host completion arrives while the upstream value is IN-RESET. The model's readings: a report's stamp is taken
after the count's step (log 34). -/
def Obligations.HostCompletionMeetsTheOutboundSet : Prop :=
  (∀ (s : State) (i : SlotId) (c : Completion), c.wf = true → s.porHeld = false →
    let sl := s.slot i
    let done := exec (.hostCompletion i c) s
    let leaves := fun x : Slot => { x with outbound.tags := x.outbound.tags.filter fun t => t.tag ≠ c.tag }
    (sl.chan.inReset = true → done = .next s)
    ∧ (sl.chan.inReset = false →
        ((∀ t ∈ sl.outbound.tags, t.tag ≠ c.tag) →
          (sl.serving → done = .next (s.reporting (s.note .protocol i (some .hostStray) (some c.tag.toNat))))
          ∧ (¬ sl.serving → done = .next s))
        ∧ ∀ before after ghost, sl.outbound.tags = before ++ { tag := c.tag, ghost := ghost } :: after →
            (∀ t ∈ before, t.tag ≠ c.tag) →
            (c.final = false →
              (sl.serving → ghost = false → done = .next (s.setSlot i (sl.tellsCard (.completion c))))
              ∧ (ghost = true ∨ ¬ sl.serving → done = .next s))
            ∧ (c.final = true →
                (sl.serving → sl.chan.cardHold = none →
                  (ghost = false → done = .next (s.setSlot i (leaves (sl.tellsCard (.completion c)))))
                  ∧ (ghost = true → done = .next (s.setSlot i (leaves sl))))
                ∧ (¬ sl.serving → done = .next (s.setSlot i (leaves sl))))))
  ∧ ∀ (s : State) (i : SlotId), s.porHeld = false → (s.slot i).outbound.deadline = some s.now →
    (¬ (s.slot i).serving ∨ (s.slot i).chan.cardHold = none) →
    exec (.ghostDeadline i) s = .next (s.setSlot i
      { s.slot i with
        outbound := { tags := (s.slot i).outbound.tags.filter fun t => t.ghost = false, deadline := none } })

/-- R12, R73: when a tag leaves the outbound set by a final host completion, or the ghosts leave it at the ghost deadline, the memory read
in the card-side hold is retried: while its own tag is still a ghost, or the set is still full, it stays; otherwise it leaves the hold for
the permit checker, and is forwarded and joins as a live tag if it passes (R154), and turned back if it fails (R155), with its weight and
its evaluation. The model's readings: a waiting slot that may not proceed is passed over (log 10), a collision at a re-offer is refused
(log 11), the policy of a stay in ISOLATED is state (log 32), a report's stamp is taken after the count's step (log 34). -/
def Obligations.HeldCardReadIsRetried : Prop :=
  ∀ (s : State) (i : SlotId) (r : Request) (a : BitVec 48) (n : Nat), s.porHeld = false → (s.slot i).serving →
    (s.slot i).chan.cardHold = some r → r.kind = .memRead a n →
    let retried := fun (done : Host.Outcome State Fault Refusal) (left : Slot) =>
      ((∃ before after, left.outbound.tags = before ++ { tag := r.tag, ghost := true } :: after
            ∧ ∀ t ∈ before, t.tag ≠ r.tag) → done = .next (s.setSlot i left))
      ∧ ((∀ t ∈ left.outbound.tags, t.tag ≠ r.tag) →
          (32 ≤ left.outbound.tags.length → done = .next (s.setSlot i left))
          ∧ (left.outbound.tags.length < 32 →
              let freed : Slot := { left with chan.cardHold := none }
              (s.permitCheck i a n = none → done = .next (s.setSlot i
                { freed.tellsHost (.request r) with
                  outbound.tags := left.outbound.tags ++ [{ tag := r.tag, ghost := false }] }))
              ∧ (∀ why, s.permitCheck i a n = some why →
                  done = .next ((s.setSlot i freed).turnsErrant i r a why))))
    (∀ (c : Completion) (before after : List OutTag) (ghost : Bool), c.wf = true → (s.slot i).chan.inReset = false →
      c.final = true → (s.slot i).outbound.tags = before ++ { tag := c.tag, ghost := ghost } :: after →
      (∀ t ∈ before, t.tag ≠ c.tag) →
      let told := if ghost = true then s.slot i else (s.slot i).tellsCard (.completion c)
      retried (exec (.hostCompletion i c) s)
        { told with outbound.tags := told.outbound.tags.filter fun t => t.tag ≠ c.tag })
    ∧ ((s.slot i).outbound.deadline = some s.now →
        retried (exec (.ghostDeadline i) s)
          { s.slot i with
            outbound := { tags := (s.slot i).outbound.tags.filter fun t => t.ghost = false, deadline := none } })

/-! ### Link events -/

/-- R14, R15, R16: LINK_DOWN in ONLINE and SUSPECT adds the link-down weight, evaluates the slot, and where it stays there starts the link
grace timer; LINK_UP there stops it, and a held request is re-offered. In the other states but RESTORING and TRAINING only the link's
value changes. The model's choices: what waits in the link's buffering on the card's side is lost at LINK_DOWN (log 7), and a LINK_DOWN of
a link already DOWN is taken in full again (log 29). The model's readings: a waiting slot that may not proceed is passed over (log 10), a
collision at a re-offer is refused (log 11), the policy of a stay in ISOLATED is state (log 32), a report's stamp is taken after the
count's step (log 34). -/
def Obligations.CardLinkEventsInService : Prop :=
  ∀ (s : State) (i : SlotId), s.porHeld = false →
    let sl := s.slot i
    let down : Slot := { sl with chan.linkUp := false, chan.cardWaiting := [] }
    let up : Slot := { sl with chan.linkUp := true }
    (¬ sl.serving → sl.ctl.state ≠ .restoring → exec (.linkDown i) s = .next (s.setSlot i down))
    ∧ (sl.serving →
        let hit := (s.setSlot i down).weighs i s.scorer.linkDown .linkDown
        exec (.linkDown i) s = .next
          (if (hit.slot i).serving then hit.setSlot i
            { hit.slot i with ctl.graceTimer := some (s.now + BitVec.ofNat 32 (1000 * sl.policy.linkGrace)) }
          else hit))
    ∧ (¬ sl.serving → sl.ctl.state ≠ .training → exec (.linkUp i) s = .next (s.setSlot i up))
    ∧ (sl.serving →
        exec (.linkUp i) s = .next ((s.setSlot i { up with ctl.graceTimer := none }).reoffersHold i))

/-- R17, R18, R40: UPSTREAM_RESET empties both holds without answer, clears the image, the identity and the outbound set, and removes
every pending entry without answer, one at a time, each offered along the pool wait list (R26, R33; the statement
FreedEntryGoesToTheWaitingSlot says who takes one); with nobody to take one the other slots stand. From ONLINE and SUSPECT it leads to
RESETTING, where the pulse awaits the release; in FENCING it ends the drain, and the slot leaves by its disposition; in RESTORING with no
write outstanding the replay is done, and the slot enters ONLINE (R131); in the other states the state stands. UPSTREAM_RELEASE ends it
and starts a pulse that awaits it. That the requests waiting in the link's buffering on the host's side are lost is the model's choice
(log 7). The model's readings: a waiting slot that may not proceed is passed over (log 10), a collision at a re-offer is refused (log 11),
a clearing stops the re-send timer (log 25), the replay sequence is state (log 27), the policy of a stay in ISOLATED is state (log 32), a
report's stamp is taken after the count's step (log 34). -/
def Obligations.UpstreamResetForgetsTheSlot : Prop :=
  ∀ (s : State) (i : SlotId), s.porHeld = false →
    let sl := s.slot i
    let cleared : Slot :=
      { sl with
        chan.inReset := true, chan.hold := none, chan.cardHold := none, chan.identity := none, chan.hostWaiting := []
        entries := [], outbound := { tags := [], deadline := none }
        store.entries := [], store.incomplete := false, store.sequence := [] }
    let rest : State := { s with poolWait := s.poolWait.filter fun j => j ≠ i }
    let t := (rest.setSlot i { cleared with entries := sl.entries }).discards i
    t.slot i = cleared
    ∧ (s.unclaimed i ∨ sl.entries = [] → t = rest.setSlot i cleared)
    ∧ (¬ sl.serving → sl.ctl.state ≠ .fencing → (sl.ctl.state = .restoring → sl.store.outstanding ≠ none) →
        exec (.upstreamReset i) s = .next t)
    ∧ (sl.serving →
        exec (.upstreamReset i) s = .next (t.moved i
          { cleared with
            chan.gateOpen := false
            ctl :=
              { sl.ctl.into .resetting with
                reason := some .upstream, attempts := 1, resetKind := some .warm, origin := some .upstream
                pulseTimer := .awaitingRelease } }))
    ∧ (sl.ctl.state = .fencing → exec (.upstreamReset i) s = .next (t.leavesFencing i))
    ∧ (sl.ctl.state = .restoring → sl.store.outstanding = none →
        exec (.upstreamReset i) s = .next ((t.setSlot i { cleared with store := cleared.store.stopped }).goesOnline i))
    ∧ (sl.chan.inReset = true → exec (.upstreamRelease i) s = .next (s.setSlot i
        { sl with
          chan.inReset := false
          ctl.pulseTimer :=
            if sl.ctl.pulseTimer = .awaitingRelease then
              .running (s.now + BitVec.ofNat 32 (1000 * sl.policy.resetPulse))
            else sl.ctl.pulseTimer }))
    ∧ (sl.chan.inReset = false → exec (.upstreamRelease i) s = .next s)

/-! ### Fences, the drain, and ISOLATED -/

/-- R15, R56, R62, R63, R173: the end of the link grace time and a CALERT assertion with the enable on fence a slot in ONLINE or SUSPECT,
with reasons LINK and CALERT, the holds emptied (R11). With nothing pending, or a drain of 0, the slot leaves FENCING at once. An
assertion elsewhere, or with the enable off, changes only the kept level; so does a release. While POR# is held only the level is taken,
which is the model's reading of R201 (log 21). The model's readings: a waiting slot that may not proceed is passed over (log 10), a
collision at a re-offer is refused (log 11), the policy of a stay in ISOLATED is state (log 32), a report's stamp is taken after the
count's step (log 34). -/
def Obligations.LinkGraceAndCalertFence : Prop :=
  ∀ (s : State) (i : SlotId),
    let sl := s.slot i
    let level := fun b : Bool => s.setSlot i { sl with pins.calert := b }
    (s.porHeld = false → sl.serving →
      (sl.ctl.graceTimer = some s.now → exec (.linkGraceExpiry i) s = .next (s.fences i .link .recover))
      ∧ (sl.pins.calert = false → sl.policy.calertEnable = true →
          exec (.calertAssertion i) s = .next ((level true).fences i .calert .recover)))
    ∧ (s.porHeld = true ∨ ¬ sl.serving ∨ sl.policy.calertEnable = false ∨ sl.pins.calert = true →
        exec (.calertAssertion i) s = .next (level true))
    ∧ exec (.calertRelease i) s = .next (level false)

/-- R11, R25, R62, R70, R71: a fence empties the holds as the gate closes. A held request of the host is absorbed in FENCING: one whose
tag is pending is answered ABORT, and nothing is counted; else a posted one is dropped and counted, a read of memory or I/O and an I/O
write is answered by fill mode, a configuration read from the identity and the image, and a configuration write is recorded and answered
SUCCESS, or ABORT without room (R122); each of these is counted. A held request of the card is dropped if posted, and answered UNSUPPORTED
if not. The slot leaves the pool wait list with its held request, the gate is closed and the other slots stand. R11, R89, R91: a held
request is absorbed in the same way, with no tag pending, when RESTORING ends at its timeout or by PWR.OFF. The fence is here the end of
the link grace time, with entries pending and a drain above 0; every other fence and every other end of RESTORING is by the shared forms
`fences`, `discharges` and `goesQuarantined`, which empty the holds likewise. The model's readings: a request command is its complete
frame (log 18). -/
def Obligations.FenceEmptiesTheHolds : Prop :=
  let taken := fun (s : State) (i : SlotId) (st : ImageStore) (h : Held) (t : State) =>
    let sl := s.slot i
    let ch := (t.slot i).chan
    let counted := ch.absorbed = min (sl.chan.absorbed + 1) 4294967295 ∧ ch.dropped = sl.chan.dropped
    let answered := fun c : Completion => ch.hostOut = sl.chan.hostOut ++ [.completion c] ∧ counted
    ch.hold = none
    ∧ (h.req.posted = true → ch.hostOut = sl.chan.hostOut ∧ ch.absorbed = sl.chan.absorbed
        ∧ ch.dropped = min (sl.chan.dropped + 1) 4294967295 ∧ (t.slot i).store = st)
    ∧ (∀ a n, h.req.kind = .memRead a n → answered (fillCompletion sl.policy.fill h.req.tag n) ∧ (t.slot i).store = st)
    ∧ (∀ a, h.req.kind = .ioRead a → answered (fillCompletion sl.policy.fill h.req.tag 1) ∧ (t.slot i).store = st)
    ∧ (∀ a m d, h.req.kind = .ioWrite a m d → answered (fillCompletion sl.policy.fill h.req.tag 0) ∧ (t.slot i).store = st)
    ∧ (∀ o, h.req.kind = .cfgRead o →
        answered { tag := h.req.tag, status := .success, data := [sl.configRead o], final := true } ∧ (t.slot i).store = st)
    ∧ ∀ o m d, h.req.kind = .cfgWrite o m d →
        answered (Completion.bare h.req.tag (if (st.record s.filter o d m).2 = true then .success else .abort))
          ∧ (t.slot i).store = (st.record s.filter o d m).1
  (∀ (s : State) (i : SlotId), s.porHeld = false → (s.slot i).serving → (s.slot i).ctl.graceTimer = some s.now →
    (s.slot i).entries ≠ [] → (s.slot i).policy.drain ≠ 0 →
    let sl := s.slot i
    ∃ t, exec (.linkGraceExpiry i) s = .next t ∧ OthersKept i s t
      ∧ (t.slot i).entries = sl.entries ∧ (t.slot i).ctl.state = .fencing
      ∧ (t.slot i).ctl.reason = some .link ∧ (t.slot i).ctl.disposition = some .recover
      ∧ (t.slot i).chan.gateOpen = false ∧ (t.slot i).chan.hold = none ∧ (t.slot i).chan.cardHold = none
      ∧ (sl.chan.hold = none → (t.slot i).chan.hostOut = sl.chan.hostOut ∧ (t.slot i).chan.absorbed = sl.chan.absorbed
          ∧ (t.slot i).chan.dropped = sl.chan.dropped ∧ (t.slot i).store = sl.store ∧ t.poolWait = s.poolWait)
      ∧ (∀ h, sl.chan.hold = some h → t.poolWait = s.poolWait.filter fun j => j ≠ i)
      ∧ (∀ h, sl.chan.hold = some h → (h.req.posted = true ∨ ∀ e ∈ sl.entries, e.tag ≠ h.req.tag) →
          taken s i sl.store h t)
      ∧ (∀ h, sl.chan.hold = some h → h.req.posted = false → (∃ e ∈ sl.entries, e.tag = h.req.tag) →
          (t.slot i).chan.hostOut = sl.chan.hostOut ++ [.completion (Completion.bare h.req.tag .abort)]
            ∧ (t.slot i).chan.absorbed = sl.chan.absorbed ∧ (t.slot i).chan.dropped = sl.chan.dropped
            ∧ (t.slot i).store = sl.store)
      ∧ (sl.chan.cardHold = none → (t.slot i).chan.cardOut = sl.chan.cardOut)
      ∧ ∀ r, sl.chan.cardHold = some r →
          (t.slot i).chan.cardOut = sl.chan.cardOut ++
            (if r.posted = true then [] else [.completion (Completion.bare r.tag .unsupported)]))
  ∧ ∀ (s : State) (i : SlotId) (c : Instr) (h : Held), s.porHeld = false → (s.slot i).ctl.state = .restoring →
    (s.slot i).chan.hold = some h →
    (c = .restoreTimeout i ∧ (s.slot i).ctl.restoreTimer = some s.now
      ∨ c = .pwrOff (slotByte i) ∧ s.linkReady ∧ (s.slot i).pins.mode = .live) →
    ∃ t, exec c s = .next t ∧ i ∉ t.poolWait ∧ taken s i (s.slot i).store.stopped h t

/-- R37, R63, R66, R78 to R81, R92: at the end of the drain every entry left is answered by fill mode, oldest first, and removed, each
then offered along the pool wait list (R26, R33; the statement FreedEntryGoesToTheWaitingSlot says who takes one; with nobody to take one
the other slots stand); then by the disposition and the policy the slot is discharged, stays in ISOLATED under HOLD or ASK, or starts an
attempt from it under AUTO, WARM or COLD. The model's readings: a waiting slot that may not proceed is passed over (log 10), a collision
at a re-offer is refused (log 11), the policy of a stay in ISOLATED is state (log 32), a report's stamp is taken after the count's step
(log 34). -/
def Obligations.DrainExpirySweepsAndLeaves : Prop :=
  ∀ (s : State) (i : SlotId), s.porHeld = false → (s.slot i).ctl.state = .fencing →
    (s.slot i).ctl.drainTimer = some s.now →
    let sl := s.slot i
    let answers := sl.entries.map fun e => HostOut.completion (fillCompletion sl.policy.fill e.tag e.fillDwords)
    let answered : Slot := { sl with entries := [], chan.hostOut := sl.chan.hostOut ++ answers }
    let swept := s.sweeps i
    let isolated := fun p : PolicyChoice => { sl.ctl.into .isolated with isoPolicy := some p }
    swept.slot i = answered
    ∧ (s.unclaimed i ∨ sl.entries = [] → swept = s.setSlot i answered)
    ∧ (sl.ctl.disposition = some .off → exec (.drainExpiry i) s = .next (swept.discharges i sl.ctl .off))
    ∧ (sl.ctl.disposition = some .recover →
        (sl.policy.policy = .hold → exec (.drainExpiry i) s = .next (swept.arrives i (isolated .hold) none))
        ∧ (sl.policy.policy = .ask → exec (.drainExpiry i) s = .next (swept.arrives i
            { isolated .ask with
              decisionTimer := .running (s.now + BitVec.ofNat 32 (1000 * sl.policy.decisionTime)) } none))
        ∧ (sl.policy.policy = .auto →
            exec (.drainExpiry i) s = .next ((swept.arrives i (isolated .auto) none).recovers i sl.policy.firstKind)))

/-- R81, R84, R88, R92: at the end of the decision time the lapse action is taken: QUARANTINED with reason LAPSE, or an attempt of the
first reset kind, COLD if power was cut. The model's readings: the kind of an attempt is forgotten in QUARANTINED and at an abandonment
(log 30), a report's stamp is taken after the count's step (log 34). -/
def Obligations.DecisionExpiryTakesTheLapseAction : Prop :=
  ∀ (s : State) (i : SlotId), s.porHeld = false → (s.slot i).ctl.state = .isolated →
    (s.slot i).ctl.decisionTimer = .running s.now →
    let sl := s.slot i
    (sl.policy.lapse = .quarantine → exec (.decisionExpiry i) s = .next (s.goesQuarantined i .lapse))
    ∧ (sl.policy.lapse = .recover → exec (.decisionExpiry i) s = .next (s.recovers i sl.policy.firstKind))

/-! ### Attempts -/

/-- R86, R93, R94, R97, R106, R109, R163: the end of the min-off time is recorded, and a 12 V or 3.3 V result is kept; a slot in
DISCHARGING is checked at both, and one whose min-off time has elapsed and whose rails have fallen then leaves it: with target bring-up
for POWER_WAIT and its request for a grant, with target OFF for OFF if a card is present and for EMPTY if none is. R90, R95: when the
discharge time ends first the slot goes to QUARANTINED with reason DISCHARGE_TIMEOUT, in an attempt after an ATTEMPT report. The model's
readings: the next conversion begins before the effects (log 15), each result holds whether it came after the power-off (log 16), the kind
of an attempt is forgotten in QUARANTINED and at an abandonment (log 30), a report's stamp is taken after the count's step (log 34). -/
def Obligations.DischargingEnds : Prop :=
  (∀ (s t : State) (i : SlotId) (c : Instr), s.porHeld = false →
    let sl := s.slot i
    let next : State :=
      { s with
        monitor :=
          { channel := s.monitor.channel + 1, convEnd := some (s.now + 25#32), discard := false, afterOff := true } }
    let kept := fun (q : Quantity) (step : Nat) =>
      ({ code := railCode q step, mark := true, afterOff := s.monitor.afterOff } : RailResult)
    (c = .minOffExpiry i ∧ sl.ctl.minOffTimer = some s.now
        ∧ t = s.setSlot i { sl with ctl.minOffTimer := none, ctl.minOffElapsed := true }
      ∨ s.monitor.convEnd = some s.now ∧ s.monitor.discard = false
        ∧ ((∃ q, c = .conversionEnd q ∧ s.monitor.channel.val = 3 * i.val
              ∧ t = next.setSlot i { sl with rails.v12 := some (kept q 4) })
          ∨ ∃ q, c = .conversionEnd q ∧ s.monitor.channel.val = 3 * i.val + 1
              ∧ t = next.setSlot i { sl with rails.v33 := some (kept q 1) })) →
    (sl.ctl.state ≠ .discharging ∨ (t.slot i).rested = false → exec c s = .next t)
    ∧ (sl.ctl.state = .discharging → (t.slot i).rested = true →
        (sl.ctl.target = some .bringUp → exec c s = .next (t.asksGrant i (t.slot i).ctl))
        ∧ (sl.ctl.target = some .off → sl.ctl.present = true → exec c s = .next (t.goesOff i))
        ∧ (sl.ctl.target = some .off → sl.ctl.present = false → exec c s = .next (t.goesEmpty i))))
  ∧ ∀ (s : State) (i : SlotId), s.porHeld = false → (s.slot i).ctl.state = .discharging →
    (s.slot i).ctl.dischargeTimer = some s.now →
    ((s.slot i).ctl.target = some .off →
      exec (.dischargeTimeout i) s = .next (s.goesQuarantined i .dischargeTimeout))
    ∧ ((s.slot i).ctl.target = some .bringUp →
        exec (.dischargeTimeout i) s = .next
          ((s.reporting (s.note .attempt i (some .dischargeTimeout) (some (s.slot i).ctl.attempts))).goesQuarantined i
            .dischargeTimeout))

/-- R99, R101, R102, R103, R104, R124, R125, R129, R144: at the ramp's end with both rails in their windows the grant is released, a grant
check follows, and the slot enters RESETTING; at the pulse's end it enters TRAINING; at a LINK_UP there it enters RESTORING and the first
entry of the replay sequence is written; with an empty image the replay is done at once, with nothing replayed, and the slot enters
ONLINE. The model's readings: a collision at a re-offer is refused (log 11), a replay write carries value and mask of its entry (log 17),
the replay sequence is state (log 27), the kind of an attempt is forgotten in QUARANTINED and at an abandonment (log 30), a report's stamp
is taken after the count's step (log 34). -/
def Obligations.AttemptGoesThroughItsStages : Prop :=
  ∀ (s : State) (i : SlotId), s.porHeld = false →
    let sl := s.slot i
    (∀ v w, sl.ctl.state = .ramping → sl.ctl.rampTimer = some s.now →
      sl.rails.v12 = some v → v.mark = true → 11000 ≤ 4 * v.code → 4 * v.code ≤ 13000 →
      sl.rails.v33 = some w → w.mark = true → 3000 ≤ w.code → w.code ≤ 3600 →
      let left := ({ s with arbiter.granted := s.arbiter.granted.filter fun p => p.slot ≠ i } : State).grantCheck
      exec (.rampExpiry i) s = .next (left.goesResetting i (left.slot i).ctl))
    ∧ (sl.ctl.state = .resetting → sl.ctl.pulseTimer = .running s.now →
        exec (.resetPulseExpiry i) s = .next (s.moved i
          { sl with
            chan.gateOpen := false
            ctl :=
              { sl.ctl.into .training with
                trainingTimer := some (s.now + BitVec.ofNat 32 (1000 * sl.policy.training)) } }))
    ∧ (∀ e rest, sl.ctl.state = .training →
        (sl.store.entries.filter fun x => x.offset ≠ 1) ++ (sl.store.entries.filter fun x => x.offset = 1) = e :: rest →
        exec (.linkUp i) s = .next (State.moved (s.setSlot i { sl with chan.linkUp := true }) i
          { (sl.tellsCard (.request .part { tag := sl.store.nextTag, kind := .cfgWrite e.offset e.mask e.value })) with
            chan.linkUp := true
            chan.gateOpen := false
            ctl := { sl.ctl.into .restoring with restoreTimer := some (s.now + 1000000#32) }
            store :=
              { sl.store with
                sequence := e :: rest, cursor := some 0, replayed := 0, nextTag := sl.store.nextTag + 1
                outstanding := some
                  { tag := sl.store.nextTag, deadline := s.now + BitVec.ofNat 32 sl.policy.slotTimeout } } }))
    ∧ (sl.ctl.state = .training → sl.store.entries = [] →
        exec (.linkUp i) s = .next ((s.setSlot i
          { sl with
            chan.linkUp := true
            ctl := sl.ctl.into .restoring
            store := { sl.store.stopped with replayed := 0 } }).goesOnline i))

/-- R89, R126: a training timeout, a restore timeout, a replay write at its deadline or answered UNSUPPORTED or ABORT, a LINK_DOWN in
RESTORING and a ramp that ends with a rail outside its window fail the attempt: its stage is given back (in RAMPING the grant, with a
grant check, R144) and an ATTEMPT report is made with the reason and the attempt count. With attempts left a COLD attempt follows in
DISCHARGING; with none left the slot goes to QUARANTINED with reason EXHAUSTED. What stands in the hold as RESTORING ends is absorbed
(R11). That a LINK_DOWN loses what waits in the link's buffering on the card's side is the model's choice (log 7). An over-current that
fails an attempt is in the statement OvercurrentActsByState. The model's readings: the replay sequence is state (log 27), the kind of an
attempt is forgotten in QUARANTINED and at an abandonment (log 30), a report's stamp is taken after the count's step (log 34). -/
def Obligations.AttemptFailureRetriesOrQuarantines : Prop :=
  ∀ (s : State) (i : SlotId) (c : Instr) (why : Reason) (left : State), s.porHeld = false →
    let sl := s.slot i
    let stopped : ImageStore := { sl.store with sequence := [], cursor := none, outstanding := none, resendTimer := none }
    (c = .trainingTimeout i ∧ why = .trainingTimeout ∧ sl.ctl.state = .training ∧ sl.ctl.trainingTimer = some s.now
        ∧ left = s
      ∨ c = .restoreTimeout i ∧ why = .restoreTimeout ∧ sl.ctl.state = .restoring ∧ sl.ctl.restoreTimer = some s.now
        ∧ left = s.setSlot i { sl with store := stopped }
      ∨ c = .replayWriteDeadline i ∧ why = .restoreFail ∧ sl.ctl.state = .restoring
        ∧ (∃ tag, sl.store.outstanding = some { tag := tag, deadline := s.now })
        ∧ left = s.setSlot i { sl with store := stopped }
      ∨ (∃ o status, c = .cardCompletion i .part (Completion.bare o.tag status) ∧ sl.store.outstanding = some o
          ∧ (status = .unsupported ∨ status = .abort))
        ∧ why = .restoreFail ∧ sl.ctl.state = .restoring ∧ sl.chan.linkUp = true
        ∧ left = s.setSlot i { sl with store := stopped }
      ∨ c = .linkDown i ∧ why = .link ∧ sl.ctl.state = .restoring
        ∧ left = s.setSlot i { sl with store := stopped, chan.linkUp := false, chan.cardWaiting := [] }
      ∨ c = .rampExpiry i ∧ why = .rail ∧ sl.ctl.state = .ramping ∧ sl.ctl.rampTimer = some s.now
        ∧ ¬ (∃ v w, sl.rails.v12 = some v ∧ v.mark = true ∧ 11000 ≤ 4 * v.code ∧ 4 * v.code ≤ 13000
              ∧ sl.rails.v33 = some w ∧ w.mark = true ∧ 3000 ≤ w.code ∧ w.code ≤ 3600)
        ∧ left = ({ s with arbiter.granted := s.arbiter.granted.filter fun p => p.slot ≠ i } : State).grantCheck) →
    let ctl := (left.slot i).ctl
    let told := left.reporting (s.note .attempt i (some why) (some ctl.attempts))
    (ctl.attempts < (left.slot i).policy.maxAttempts →
      exec c s = .next (told.discharges i
        { ctl with reason := some why, attempts := ctl.attempts + 1, resetKind := some .cold } .bringUp))
    ∧ ((left.slot i).policy.maxAttempts ≤ ctl.attempts → exec c s = .next (told.goesQuarantined i .exhausted))

/-! ### Decay, presence, rails, pins -/

/-- R48, R50, R51, R52, R157: at the decay event the next epoch starts, the score of every slot in ONLINE or SUSPECT becomes three
quarters of itself rounded down, and every errant-reported mark is cleared. Where no evaluation acts nothing else happens. Each slot whose
evaluation acts is evaluated, after a lowering of the thresholds as well (R53): a score at or above the fence threshold makes a HANG
report of kind DECAY and a fence; else an ONLINE slot, whose score is then at or above the warn threshold, moves to SUSPECT, and a SUSPECT
slot, whose score has then fallen below half of it, returns to ONLINE, each with a STATE report. Of several such slots each is evaluated
once, in any order (log 3). The model's readings: a waiting slot that may not proceed is passed over (log 10), a collision at a re-offer
is refused (log 11), the policy of a stay in ISOLATED is state (log 32), a report's stamp is taken after the count's step (log 34). -/
def Obligations.DecayEventDecaysEveryScore : Prop :=
  ∀ s : State, s.porHeld = false → s.scorer.decayTimer = some s.now →
    let decayed : State :=
      { s with
        scorer.decayTimer := some (s.now + BitVec.ofNat 32 (1000 * s.scorer.decayEpoch))
        slots := s.slots.map fun sl =>
          { sl with
            ctl.score := if sl.ctl.state.isOpen = true then sl.ctl.score * 3 / 4 else sl.ctl.score
            permit.errantReported := false } }
    let quiet := fun j : SlotId => (s.slot j).serving →
      s.scorer.quietAt (s.slot j).ctl.state ((s.slot j).ctl.score * 3 / 4)
    ((∀ j, quiet j) → exec .decayEvent s = .next decayed)
    ∧ (∀ i, (∀ j, j ≠ i → quiet j) → ¬ quiet i →
        exec .decayEvent s = .next (decayed.evaluates i .decay)
        ∧ let score := (s.slot i).ctl.score * 3 / 4
          let x := decayed.slot i
          let moves := fun st : SlotState => decayed.evaluates i .decay =
            (decayed.moved i
              { x with chan.gateOpen := true, ctl := { x.ctl.into st with lastReported := st } }).reporting
              (s.stateNote i st (some .score) (some score))
          (s.scorer.fence ≤ score → decayed.evaluates i .decay =
            (decayed.reporting (s.note .hang i (some .decay) (some score))).fences i .score .recover)
          ∧ (score < s.scorer.fence → (s.slot i).ctl.state = .online → moves .suspect)
          ∧ (score < s.scorer.fence → (s.slot i).ctl.state = .suspect → moves .online))
    ∧ (∃ (l : List SlotId) (n : Nat), l.Nodup ∧ (∀ j, j ∈ l ↔ ¬ quiet j) ∧
        exec .decayEvent s = .next
          (l.foldl (fun t j => t.evaluates j .decay) ({ decayed with freeCount := n } : State)))

/-- R171: a change of the PRSNT level away from the delivered one starts the debounce timer for 20 ms, and a change back stops it; no
change is no event (the model's reading, log 1); while POR# is held only the level follows (log 21). R110 to R112, R172: at the timer's
expiry the level is delivered with a PRESENCE report. An insertion in EMPTY records INSERTED and leads to a bring-up with auto-power on
and the pin mode LIVE, and to OFF otherwise; in another state it only sets presence. R201: of the timers started at the end of power-on
reset one is delivered only when no lower slot's is due (log 24). What a loss does is in the statement LossActsByState. The model's
readings: a report's stamp is taken after the count's step (log 34). -/
def Obligations.PresenceIsDebouncedAndDelivered : Prop :=
  (∀ (s : State) (i : SlotId) (b : Bool),
    let sl := s.slot i
    (s.porHeld = false → sl.pins.prsnt ≠ b →
      exec (.prsntChange i b) s = .next (s.setSlot i
        { sl with
          pins.prsnt := b
          pins.startUp := false
          pins.debounce := if b = sl.pins.delivered then none else some (s.now + 20000#32) }))
    ∧ (s.porHeld = false → sl.pins.prsnt = b → exec (.prsntChange i b) s = .next s)
    ∧ (s.porHeld = true → exec (.prsntChange i b) s = .next (s.setSlot i { sl with pins.prsnt := b })))
  ∧ ∀ (s : State) (i : SlotId), s.porHeld = false → (s.slot i).pins.debounce = some s.now →
    let sl := s.slot i
    let first := sl.pins.startUp = true →
      ∀ j < i, (s.slot j).pins.startUp = true → (s.slot j).pins.debounce ≠ some s.now
    let delivered : Slot := { sl with pins.delivered := true, pins.debounce := none, pins.startUp := false }
    let told := (s.setSlot i { delivered with ctl.present := true }).reporting
      (s.note .presence i (some .inserted) none)
    (¬ first → exec (.presenceDebounceExpiry i) s = .next s)
    ∧ (first → sl.pins.prsnt = true →
        (sl.ctl.state ≠ .empty → exec (.presenceDebounceExpiry i) s = .next told)
        ∧ (sl.ctl.state = .empty → (sl.policy.autoPower = false ∨ sl.pins.mode ≠ .live) →
            exec (.presenceDebounceExpiry i) s = .next
              ((told.setSlot i { told.slot i with ctl.reason := some .inserted }).goesOff i))
        ∧ (sl.ctl.state = .empty → sl.policy.autoPower = true → sl.pins.mode = .live →
            exec (.presenceDebounceExpiry i) s = .next (told.bringsUp i .inserted)))

/-- R112, R172: a presence loss is delivered with a PRESENCE report and sets presence to ABSENT. In OFF the slot enters EMPTY (R109); in
ONLINE and SUSPECT it is fenced with reason REMOVED, disposition OFF and a drain of 0 (R57); in FENCING what is pending is swept and the
slot discharged whatever its disposition (R65); in ISOLATED and QUARANTINED it is discharged (R83, R85), its reason becoming REMOVED (log
13); in the recovery states the attempt is abandoned (R91, R96, R98, R100). A loss in EMPTY, which R112 says cannot arise, changes nothing
more in the model (log 1). In FENCING, and in DISCHARGING with target OFF, the reason stays as it was recorded (R65; log 35). The model's
readings: a waiting slot that may not proceed is passed over (log 10), a collision at a re-offer is refused (log 11), the kind of an
attempt is forgotten in QUARANTINED and at an abandonment (log 30), the policy of a stay in ISOLATED is state (log 32), a departing head's
grant check comes before the entry to DISCHARGING (log 33), a report's stamp is taken after the count's step (log 34). -/
def Obligations.LossActsByState : Prop :=
  ∀ (s : State) (i : SlotId), s.porHeld = false → (s.slot i).pins.debounce = some s.now →
    (s.slot i).pins.startUp = false → (s.slot i).pins.prsnt = false →
    let sl := s.slot i
    let delivered : Slot := { sl with pins.delivered := false, pins.debounce := none }
    let told := (s.setSlot i { delivered with ctl.present := false }).reporting
      (s.note .presence i (some .removed) none)
    let done := exec (.presenceDebounceExpiry i) s
    (sl.ctl.state = .empty → done = .next told)
    ∧ (sl.ctl.state = .off → done = .next (told.goesEmpty i))
    ∧ (sl.serving → done = .next (told.fences i .removed .off))
    ∧ (sl.ctl.state = .fencing →
        done = .next ((told.sweeps i).discharges i (told.slot i).ctl .off))
    ∧ (sl.ctl.state = .isolated ∨ sl.ctl.state = .quarantined →
        done = .next (told.discharges i { (told.slot i).ctl with reason := some .removed } .off))
    ∧ (sl.ctl.state ∈ [.discharging, .powerWait, .ramping, .resetting, .training, .restoring] →
        done = .next (told.abandons i .removed))

/-- R163 to R166: at the end of a conversion the next channel's begins, 25 us long (log 15), and the result is kept, marked, as its code;
one that was to be discarded is not. A current result kept with PWREN on counts: at or under the slot's limit it ends the run, and above
it a first one starts the run. A voltage result in DISCHARGING is in the statement DischargingEnds, and a second high sample in
OvercurrentActsByState. The model's readings: each result holds whether it came after the power-off (log 16). -/
def Obligations.ConversionEndKeepsTheResult : Prop :=
  ∀ (s : State) (q : Quantity) (i : SlotId) (place : Nat), s.porHeld = false → s.monitor.convEnd = some s.now →
    s.monitor.channel.val = 3 * i.val + place → place < 3 →
    let sl := s.slot i
    let t : State :=
      { s with
        monitor :=
          { channel := s.monitor.channel + 1, convEnd := some (s.now + 25#32), discard := false, afterOff := true } }
    let kept := fun step : Nat =>
      ({ code := railCode q step, mark := true, afterOff := s.monitor.afterOff } : RailResult)
    let done := exec (.conversionEnd q) s
    let current : Slot := { sl with rails.current := some (kept 5) }
    let limit := if sl.ctl.state = .ramping then min (2 * sl.policy.currentLimit) 20000 else sl.policy.currentLimit
    (s.monitor.discard = true → done = .next t)
    ∧ (s.monitor.discard = false →
        (place = 0 → sl.ctl.state ≠ .discharging → done = .next (t.setSlot i { sl with rails.v12 := some (kept 4) }))
        ∧ (place = 1 → sl.ctl.state ≠ .discharging → done = .next (t.setSlot i { sl with rails.v33 := some (kept 1) }))
        ∧ (place = 2 →
            (sl.pwren = false → done = .next (t.setSlot i current))
            ∧ (sl.pwren = true → 5 * railCode q 5 ≤ limit →
                done = .next (t.setSlot i { current with rails.runCount := 0 }))
            ∧ (sl.pwren = true → limit < 5 * railCode q 5 → sl.rails.runCount = 0 →
                done = .next (t.setSlot i { current with rails.runCount := 1 }))))

/-- R166, R167: a second high sample in a row is an over-current event: an OVERCURRENT report with the current in mA and reason RAMP or
LIMIT, the return to LIVE from HOLD and FLOAT (R177), after which the PWREN level is the LIVE drive even where the board held the line on
in FLOAT (the model's choice, log 39), and then by the state: in ONLINE and SUSPECT a fence with its power cut (R57, R62); in FENCING
power off, the power-cut mark set and the drain ended (R64); in ISOLATED power off and the mark set, the state as it was (R83); in
RAMPING, RESETTING, TRAINING and RESTORING an attempt failure with reason OVERCURRENT (R100, R105); in the other states nothing further.
The model's readings: a waiting slot that may not proceed is passed over (log 10), a collision at a re-offer is refused (log 11), the next
conversion begins before the effects (log 15), each result holds whether it came after the power-off (log 16), the kind of an attempt is
forgotten in QUARANTINED and at an abandonment (log 30), the policy of a stay in ISOLATED is state (log 32), a report's stamp is taken
after the count's step (log 34). -/
def Obligations.OvercurrentActsByState : Prop :=
  ∀ (s : State) (q : Quantity) (i : SlotId), s.porHeld = false → s.monitor.convEnd = some s.now →
    s.monitor.channel.val = 3 * i.val + 2 → s.monitor.discard = false →
    let sl := s.slot i
    let limit := if sl.ctl.state = .ramping then min (2 * sl.policy.currentLimit) 20000 else sl.policy.currentLimit
    sl.pwren = true → limit < 5 * railCode q 5 → sl.rails.runCount ≠ 0 →
    let next : State :=
      { s with
        monitor :=
          { channel := s.monitor.channel + 1, convEnd := some (s.now + 25#32), discard := false, afterOff := true } }
    let sampled := next.setSlot i
      { sl with
        rails.current := some { code := railCode q 5, mark := true, afterOff := s.monitor.afterOff }
        rails.runCount := 0 }
    let live := (sampled.reporting (s.note .overcurrent i
      (some (if sl.ctl.state = .ramping then .ramp else .limit)) (some (5 * railCode q 5)))).returnsToLive i
    let cut := live.moved i { live.slot i with ctl.powerCut := true }
    let done := exec (.conversionEnd q) s
    (sl.serving → done = .next (live.fences i .overcurrent .recover))
    ∧ (sl.ctl.state = .fencing → done = .next ((cut.sweeps i).leavesFencing i))
    ∧ (sl.ctl.state = .isolated → done = .next cut)
    ∧ (sl.ctl.state ∈ [.ramping, .resetting, .training, .restoring] → done = .next (live.failsAttempt i .overcurrent))
    ∧ (sl.ctl.state ∈ [.empty, .off, .quarantined, .discharging, .powerWait] → done = .next live)

/-- Section 5.10, R60, R170: in LIVE the four outputs take the drive of the slot's state, or with the power-cut mark the drive of R60 in
FENCING and ISOLATED; in HOLD they take the held image; in FLOAT the part drives none, and the PWREN line takes the board's level (R165).
A change of the board's level is a change of the line in FLOAT and reaches the rail monitor with it; that the board's level is state in
every pin mode is the model's choice (log 5), and while POR# is held only the level follows (log 21). A blinking ATTN line alternates at
each toggle, and the next follows 500 ms later. -/
def Obligations.OutputsFollowStateAndMode : Prop :=
  (∀ sl : Slot,
    let drives := fun (p k c : Bool) (a : Attn) =>
      sl.drive = some { pwren := p, clken := k, crst := c, attn := a } ∧ sl.pwren = p
    (sl.pins.mode = .live →
      (sl.ctl.state = .empty ∨ sl.ctl.state = .off → drives false false true .off)
      ∧ (sl.ctl.state = .online → drives true true false .off)
      ∧ (sl.ctl.state = .suspect → drives true true false .blink)
      ∧ (sl.ctl.state = .fencing → sl.ctl.powerCut = false → drives true true false .on)
      ∧ (sl.ctl.state = .isolated → sl.ctl.powerCut = false → drives true true true .on)
      ∧ (sl.ctl.state = .fencing ∨ sl.ctl.state = .isolated → sl.ctl.powerCut = true → drives false false true .on)
      ∧ (sl.ctl.state = .quarantined → drives false false true .blink)
      ∧ (sl.ctl.state = .discharging ∨ sl.ctl.state = .powerWait → drives false false true .on)
      ∧ (sl.ctl.state = .ramping → drives true false true .on)
      ∧ (sl.ctl.state = .resetting → drives true true true .on)
      ∧ (sl.ctl.state = .training ∨ sl.ctl.state = .restoring → drives true true false .on))
    ∧ (sl.pins.mode = .hold → drives sl.pins.held.pwren sl.pins.held.clken sl.pins.held.crst sl.pins.held.attn)
    ∧ (sl.pins.mode = .float → sl.drive = none ∧ sl.pwren = sl.pins.boardPwren))
  ∧ ∀ (s : State) (i : SlotId) (b : Bool),
    let sl := s.slot i
    (s.porHeld = false → exec (.pwrenChange i b) s = .next (s.moved i { sl with pins.boardPwren := b }))
    ∧ (s.porHeld = true → exec (.pwrenChange i b) s = .next (s.setSlot i { sl with pins.boardPwren := b }))
    ∧ (s.porHeld = false → sl.pins.blinkTimer = some s.now →
        exec (.attnBlinkToggle i) s = .next (s.setSlot i
          { sl with pins.blinkOn := !sl.pins.blinkOn, pins.blinkTimer := some (s.now + 500000#32) }))

/-! ### The management link -/

/-- Section 10.3, R185: every request that fits a frame is read back from its payload as it was, with every field at every value. -/
def Obligations.RequestRoundTrip : Prop :=
  ∀ (sb : Byte) (r : BmcRequest), r.wf = true → parseRequest (encodeRequest sb r) = .request sb r

/-- R180, R182: a request's frame received character by character, from HUNT, does exactly what the request's command does (log 18). -/
def Obligations.CharactersMakeTheRequest : Prop :=
  ∀ (s : State) (c : Instr) (sb : Byte) (r : BmcRequest) (frame : List Byte), c.request = some (sb, r) → c.wf = true →
    FrameOf (encodeRequest sb r) frame →
    s.link.phase = .hunt → s.link.frameLen = 0 → s.link.payload = [] → s.link.gapTimer = none →
    s.hears frame = exec c s

/-- R180: a character with a good stop bit carries the frame on: the sync byte 0xA5 in HUNT, a length of 1..60, and each payload byte,
each starting the gap timer anew for 2 ms. R180, R181: a character without a good stop bit, a length outside 1..60, a frame whose bytes do
not add up, and a gap of 2 ms each discard the frame under assembly and are counted, up to 65,535; a byte other than 0xA5 in HUNT is
ignored. MRX is ignored while CRESET# is held (R202). That a discard at a bad length byte or by a low stop bit stops the gap timer is the
model's choice (log 37). -/
def Obligations.CharactersAreAssembledOrDiscarded : Prop :=
  ∀ (s : State) (v : Byte), s.porHeld = false → s.cresetHeld = false →
    let hunt : Link := { s.link with phase := .hunt, frameLen := 0, payload := [], gapTimer := none }
    let gap := some (s.now + 2000#32)
    (s.link.phase = .hunt → exec (.characterReceived 0xA5 true) s =
      .next { s with link.phase := .length, link.gapTimer := gap })
    ∧ (s.link.phase = .length → 1 ≤ v.toNat → v.toNat ≤ 60 → exec (.characterReceived v true) s =
        .next { s with link.phase := .payload, link.frameLen := v.toNat, link.payload := [], link.gapTimer := gap })
    ∧ (s.link.phase = .payload → exec (.characterReceived v true) s =
        .next
          { s with
            link.payload := s.link.payload ++ [v]
            link.phase := if s.link.payload.length + 1 < s.link.frameLen then .payload else .check
            link.gapTimer := gap })
    ∧ exec (.characterReceived v false) s =
        .next { s with link := { hunt with counts.framing := min (s.link.counts.framing + 1) 65535 } }
    ∧ (s.link.phase = .hunt → v ≠ 0xA5 → exec (.characterReceived v true) s = .next s)
    ∧ (s.link.phase = .length → (v = 0 ∨ 60 < v.toNat) →
        exec (.characterReceived v true) s =
          .next { s with link := { hunt with counts.length := min (s.link.counts.length + 1) 65535 } })
    ∧ (s.link.phase = .check →
        (s.link.frameLen + (s.link.payload.map fun b => b.toNat).sum + v.toNat) % 256 ≠ 0 →
        exec (.characterReceived v true) s =
          .next { s with link := { hunt with counts.check := min (s.link.counts.check + 1) 65535 } })
    ∧ (s.link.gapTimer = some s.now →
        exec .gapTimerExpiry s = .next { s with link := { hunt with counts.gap := min (s.link.counts.gap + 1) 65535 } })
    ∧ ∀ b, exec (.characterReceived v b) { s with cresetHeld := true } = .next { s with cresetHeld := true }

/-- R182, R184, R194: a reply's first character begins at its time, and its last ends after the whole frame at 10 bit times a character;
then the frame sent is on record (log 9) and the link is idle; after PART.RESET's reply the control reset is taken (R202), all else
standing, else a waiting request: its effect and its reply are those of the request arriving now, and the reply begins at the latest of
the three moments of R184: the reply point, which lies at the end of the previous reply, that end itself, and the end of the request's own
check byte plus the hold-off. A waiting frame of an unknown kind is answered UNKNOWN (0x05), and one of a length its kind does not allow
LENGTH (0x06), beginning likewise (R185). The place of the waiting request is free from then on, so a frame that completes at that moment
waits, which is the model's choice (log 38). That the line's times are counted in units of 1/576 us, and taken at the first whole
microsecond at or after them, is the model's choice (log 19). The model's readings: a request command is its complete frame (log 18). -/
def Obligations.RepliesAreSent : Prop :=
  ∀ (s : State) (p : InProcess), s.porHeld = false → s.link.inProcess = some p →
    let bit := if s.link.fast = true then 625 else 5000
    (p.started = false → p.startAt ≤ s.elapsed * 576 →
      exec .replyStart s = .next
        { s with
          link.inProcess :=
            some { p with started := true, endAt := p.startAt + (p.reply.length + 3) * (10 * bit) } })
    ∧ (p.started = true → p.endAt ≤ s.elapsed * 576 → ∃ frame, FrameOf p.reply frame
        ∧ (p.partReset = false → s.link.waiting = none →
            exec .replySent s = .next
              { s with
                link.inProcess := none
                link.sent := s.link.sent ++ [{ bytes := frame, whole := true }] })
        ∧ (∀ n : Nat, p.partReset = false → s.cresetHeld = false →
            let served : State :=
              { s with
                link.inProcess := none
                link.waiting := none
                link.sent := s.link.sent ++ [{ bytes := frame, whole := true }] }
            let begins := fun v : State => (Host.Outcome.next
              { v with
                link.inProcess := v.link.inProcess.map fun q =>
                  { q with startAt := max p.endAt (n + v.link.holdOff * bit) } } : Host.Outcome State Fault Refusal)
            (∀ (c : Instr) sb r, c.request = some (sb, r) → c.wf = true →
              s.link.waiting = some { payload := encodeRequest sb r, frameEnd := n } →
              ∃ v, exec c served = .next v ∧ exec .replySent s = begins v)
            ∧ ∀ payload : List Byte, s.link.waiting = some { payload := payload, frameEnd := n } →
                1 ≤ payload.length → payload.length ≤ 60 →
                let code := payload.headD 0
                ((code = 0 ∨ 0x16 < code.toNat) → exec .replySent s = begins (served.answering (code + 0x80) 0x05 []))
                ∧ (code ≠ 0 → code.toNat ≤ 0x16 → lengthAllowed payload = false →
                    exec .replySent s = begins (served.answering (code + 0x80) 0x06 [])))
        ∧ (p.partReset = true →
            exec .replySent s = .next (s.clearsControl (s.link.sent ++ [{ bytes := frame, whole := true }]))))

/-- R182, R183: a request whose frame completes on a busy link becomes the waiting request, and one more is an overrun: discarded, counted
and flagged; the request in process and the waiting one stand. That this holds right after a waiting request was taken too is the model's
choice (log 38). While CRESET# is held MRX is ignored (R202). R185: a frame whose first payload byte is no request code is answered
UNKNOWN (0x05), and one whose payload has a length its kind does not allow LENGTH (0x06); a slot request whose slot byte is above 7, and a
part-wide request whose slot byte is not 0xFF, is answered SLOT (0x07) and has no effect. The model's readings: a request command is its
complete frame (log 18). -/
def Obligations.BusyOrRefusedRequests : Prop :=
  (∀ (s : State) (c : Instr) (sb : Byte) (r : BmcRequest), c.request = some (sb, r) → c.wf = true → s.porHeld = false →
    (s.cresetHeld = true → exec c s = .next s)
    ∧ (s.cresetHeld = false → s.link.inProcess ≠ none →
        (s.link.waiting = none → exec c s = .next
          { s with link.waiting := some { payload := encodeRequest sb r, frameEnd := s.elapsed * 576 } })
        ∧ (s.link.waiting ≠ none → exec c s = .next
            { s with link.overrun := true, link.counts.overrun := min (s.link.counts.overrun + 1) 65535 }))
    ∧ (s.linkReady →
        ((r.code ∈ [0x01#8, 0x0A#8, 0x0B#8, 0x0C#8, 0x10#8, 0x15#8, 0x16#8] ∧ sb ≠ 0xFF)
          ∨ (r.code ∉ [0x01#8, 0x0A#8, 0x0B#8, 0x0C#8, 0x10#8, 0x15#8, 0x16#8] ∧ 7 < sb.toNat)) →
        exec c s = .next (s.answering (r.code + 0x80) 0x07 [])))
  ∧ ∀ (s : State) (payload frame : List Byte), s.linkReady → 1 ≤ payload.length → payload.length ≤ 60 →
    FrameOf payload frame →
    s.link.phase = .hunt → s.link.frameLen = 0 → s.link.payload = [] → s.link.gapTimer = none →
    let code := payload.headD 0
    ((code = 0 ∨ 0x16 < code.toNat) → s.hears frame = .next (s.answering (code + 0x80) 0x05 []))
    ∧ (code ≠ 0 → code.toNat ≤ 0x16 → lengthAllowed payload = false →
        s.hears frame = .next (s.answering (code + 0x80) 0x06 []))

/-- Section 10.3: the bytes of the records the part sends. A value of several bytes goes least significant byte first. RAIL.READ has the
three reported values, 0 where there is no result yet, and the marks in bits 0 to 2. A report record has slot, kind, partial flag and
value-present bit in its first byte, then stamp, reason, old and new state, value and lost count. A policy record has its 28 bytes in the
section's order, and SLOT.GET's bits stand in the order the section names them. The codes of states, report kinds and reasons are the
section's. The model's readings: bits stand in the order named (log 28). -/
def Obligations.RecordsAreLaidOut : Prop :=
  let b := fun n : Nat => (BitVec.ofNat 8 n : Byte)
  (∀ n, leBytes 2 n = [b n, b (n / 256)] ∧ leBytes 4 n = [b n, b (n / 256), b (n / 65536), b (n / 16777216)]
    ∧ leBytes 5 n = [b n, b (n / 256), b (n / 65536), b (n / 16777216), b (n / 4294967296)])
  ∧ (∀ r : Rails, ∃ m : Byte,
      let value := fun (x : Option RailResult) (step : Nat) => match x with
        | some v => step * v.code
        | none => 0
      let mark := fun x : Option RailResult => match x with
        | some v => v.mark
        | none => false
      r.bytes = leBytes 2 (value r.v12 4) ++ leBytes 2 (value r.v33 1) ++ leBytes 2 (value r.current 5) ++ [m]
        ∧ m.toNat < 8 ∧ m.getLsbD 0 = mark r.v12 ∧ m.getLsbD 1 = mark r.v33 ∧ m.getLsbD 2 = mark r.current)
  ∧ (∀ r : Report, ∃ h : Byte,
      r.bytes = h :: leBytes 4 r.stamp.toNat
          ++ [reasonByte r.reason, (match r.states with | some p => p.1.code | none => 0xFF),
            (match r.states with | some p => p.2.code | none => 0xFF)]
          ++ leBytes 5 (r.value.getD 0) ++ [b r.lost]
        ∧ h.toNat % 8 = r.slot.val ∧ h.toNat / 8 % 8 = r.kind.code ∧ h.getLsbD 6 = r.partialRestore
        ∧ h.getLsbD 7 = r.value.isSome)
  ∧ (∀ p : Policy, p.bytes =
      [if p.policy = .auto then 0 else if p.policy = .ask then 1 else 2, if p.lapse = .recover then 0 else 1]
        ++ leBytes 2 p.decisionTime ++ [if p.firstKind = .warm then 0 else 1, b p.maxAttempts, b p.quota]
        ++ leBytes 2 p.slotTimeout ++ leBytes 2 p.drain ++ [if p.fill = .ones then 0 else 1, b p.linkGrace]
        ++ leBytes 2 p.resetPulse ++ leBytes 2 p.minOff ++ leBytes 2 p.dischargeTimeout ++ leBytes 2 p.ramp
        ++ leBytes 2 p.training ++ leBytes 2 p.currentLimit
        ++ [b p.demand, if p.calertEnable = true then 1 else 0, if p.autoPower = true then 1 else 0])
  ∧ (∀ sl : Slot, sl.statusBits.toNat < 64 ∧ sl.statusBits.getLsbD 0 = sl.chan.hold.isSome
      ∧ sl.statusBits.getLsbD 1 = sl.chan.cardHold.isSome ∧ sl.statusBits.getLsbD 2 = sl.chan.linkUp
      ∧ sl.statusBits.getLsbD 3 = sl.ctl.present ∧ sl.statusBits.getLsbD 4 = sl.chan.inReset
      ∧ sl.statusBits.getLsbD 5 = sl.ctl.powerCut)
  ∧ [SlotState.empty, .off, .online, .suspect, .fencing, .isolated, .quarantined, .discharging, .powerWait, .ramping,
      .resetting, .training, .restoring].map (fun st => st.code.toNat) = List.range 13
  ∧ [ReportKind.state, .hang, .errant, .overcurrent, .attempt, .restored, .presence, .protocol].map ReportKind.code =
      List.range 8
  ∧ [PinMode.live, .hold, .float].map (fun m => m.code.toNat) = [0, 1, 2]
  ∧ reasonByte none = 0x00 ∧ (∀ r, reasonByte (some r) = r.code)
  ∧ [Reason.score, .command, .overcurrent, .removed, .link, .calert, .upstream, .inserted, .ordered, .lapse, .exhausted,
      .dischargeTimeout, .budget, .rail, .trainingTimeout, .restoreFail, .restoreTimeout].map (fun r => r.code.toNat) =
      ((List.range 17).map fun n => n + 1)
  ∧ [Reason.timeout, .stray, .malformed, .errant, .linkDown, .decay, .denied, .outside, .ramp, .limit, .tagCollision,
      .cardTag, .hostStray].map (fun r => r.code.toNat) =
      [0x20, 0x21, 0x22, 0x23, 0x24, 0x25, 0x28, 0x29, 0x2C, 0x2D, 0x30, 0x31, 0x32]

/-- R135, R168, R178, R186, R187, R188, R193: the requests that read answer OK with the bytes of section 10.3 and change nothing but the
hold-off (ID), the report queue (REPORT.TAKE) and the model's own counter of free values (PIN.SAMPLE in FLOAT, log 5). R198: ALERT# is
asserted while the report queue holds at least one record, so once any report is offered, and while POR# or CRESET# is held an offered
report changes nothing; after a REPORT.TAKE it stays asserted only if more than four records stood. The model's readings: a request
command is its complete frame (log 18), bits stand in the order named (log 28). -/
def Obligations.ReadingRequestsAnswer : Prop :=
  (∀ s : State, (s.alert = true ↔ s.reports.records ≠ [])
    ∧ ∀ r : Report, (s.mute = false → (s.reporting r).alert = true) ∧ (s.mute = true → s.reporting r = s))
  ∧ ∀ (s : State) (i : SlotId), s.linkReady →
    let sl := s.slot i
    let idData := fun l : Link =>
      [0x4E#8, 0x2C#8, 0x08#8, 0x26#8, 0x01#8, BitVec.ofNat 8 l.holdOff, if l.fast = true then 1#8 else 0#8]
        ++ leBytes 2 l.counts.gap ++ leBytes 2 l.counts.framing ++ leBytes 2 l.counts.length ++ leBytes 2 l.counts.check
        ++ leBytes 2 l.counts.overrun
    let counted := [BitVec.ofNat 8 sl.store.entries.length, if sl.store.incomplete = true then 1#8 else 0#8]
    exec (.id 0xFF none) s = .next (s.answering 0x81 0x00 (idData s.link))
    ∧ (∀ h : Byte, exec (.id 0xFF (some h)) s = .next
        (({ s with link.holdOff := h.toNat } : State).answering 0x81 0x00 (idData { s.link with holdOff := h.toNat })))
    ∧ exec (.slotGet (slotByte i)) s = .next (s.answering 0x82 0x00
        ([sl.ctl.state.code, reasonByte sl.ctl.reason, BitVec.ofNat 8 sl.ctl.score, BitVec.ofNat 8 sl.ctl.attempts,
            BitVec.ofNat 8 sl.entries.length, sl.statusBits, BitVec.ofNat 8 sl.store.entries.length,
            if sl.store.incomplete = true then 1#8 else 0#8, BitVec.ofNat 8 sl.store.replayed,
            BitVec.ofNat 8 sl.outbound.tags.length, sl.pins.mode.code]
          ++ leBytes 4 sl.chan.dropped ++ leBytes 4 sl.chan.absorbed ++ sl.policy.bytes))
    ∧ exec (.railRead (slotByte i)) s = .next (s.answering 0x94 0x00 sl.rails.bytes)
    ∧ (∀ (x : Byte) (e : ImgEntry), sl.store.entries[x.toNat]? = some e →
        exec (.imgRead (slotByte i) x) s = .next (s.answering 0x8D 0x00
          (counted ++ leBytes 2 e.offset.toNat ++ leBytes 4 e.value.toNat ++ [BitVec.ofNat 8 e.mask.toNat])))
    ∧ (∀ x : Byte, sl.store.entries.length ≤ x.toNat →
        exec (.imgRead (slotByte i) x) s = .next (s.answering 0x8D 0x03 counted))
    ∧ (∀ d, sl.drive = some d → ∃ b : Byte, exec (.pinSample (slotByte i)) s = .next (s.answering 0x93 0x00 [b])
        ∧ b.getLsbD 0 = d.pwren ∧ b.getLsbD 1 = d.clken ∧ b.getLsbD 2 = d.crst
        ∧ b.getLsbD 3 = (d.attn == .on || d.attn == .blink && sl.pins.blinkOn)
        ∧ b.getLsbD 4 = sl.pins.prsnt ∧ b.getLsbD 5 = sl.pins.calert)
    ∧ (sl.pins.mode = .float → ∃ b : Byte,
        exec (.pinSample (slotByte i)) s = .next
          (({ s with freeCount := s.freeCount + 3 } : State).answering 0x93 0x00 [b])
        ∧ b.getLsbD 0 = sl.pins.boardPwren ∧ b.getLsbD 4 = sl.pins.prsnt ∧ b.getLsbD 5 = sl.pins.calert)
    ∧ exec (.reportTake 0xFF) s = .next
        (({ s with reports.records := s.reports.records.drop 4 } : State).answering 0x95 0x00
          (BitVec.ofNat 8 (min s.reports.records.length 4) :: (s.reports.records.take 4).flatMap Report.bytes))
    ∧ ∀ t, exec (.reportTake 0xFF) s = .next t → (t.alert = true ↔ 4 < s.reports.records.length)

/-- R53, R87, R116, R158, R159, R189: SLOT.SET takes the record with every number at the nearer end of its range and max attempts not
below the attempt count, refuses an enumeration out of range, and re-offers a request that waits for quota where the quota rose (R22);
WIN.SET, DENY.SET and FILTER.SET take their pairs in order, and SCORE.SET its parameters; what a rule refuses is answered RANGE (0x03)
without effect, and what it clamps CLAMPED (0x01). The model's readings: a collision at a re-offer is refused (log 11), a request command
is its complete frame (log 18), a report's stamp is taken after the count's step (log 34). -/
def Obligations.SettingRequestsSet : Prop :=
  ∀ (s : State) (i : SlotId), s.linkReady →
    let sl := s.slot i
    (∀ r : RawPolicy,
      let wrong := 2 < r.policy.toNat ∨ 1 < r.lapse.toNat ∨ 1 < r.firstKind.toNat ∨ 1 < r.fill.toNat
        ∨ 1 < r.calertEnable.toNat ∨ 1 < r.autoPower.toNat
      let near := fun (low high n : Nat) => if n < low then low else if high < n then high else n
      let sent : Policy :=
        { policy := if r.policy = 0 then .auto else if r.policy = 1 then .ask else .hold
          lapse := if r.lapse = 0 then .recover else .quarantine
          decisionTime := r.decisionTime.toNat
          firstKind := if r.firstKind = 0 then .warm else .cold
          maxAttempts := r.maxAttempts.toNat, quota := r.quota.toNat, slotTimeout := r.slotTimeout.toNat
          drain := r.drain.toNat
          fill := if r.fill = 0 then .ones else .abort
          linkGrace := r.linkGrace.toNat, resetPulse := r.resetPulse.toNat, minOff := r.minOff.toNat
          dischargeTimeout := r.dischargeTimeout.toNat, ramp := r.ramp.toNat, training := r.training.toNat
          currentLimit := r.currentLimit.toNat, demand := r.demand.toNat
          calertEnable := decide (r.calertEnable = 1), autoPower := decide (r.autoPower = 1) }
      let taken : Policy :=
        { sent with
          decisionTime := near 1 60000 sent.decisionTime
          maxAttempts := max (near 1 4 sent.maxAttempts) sl.ctl.attempts
          quota := near 1 64 sent.quota, slotTimeout := near 100 50000 sent.slotTimeout, drain := near 0 10000 sent.drain
          linkGrace := near 1 100 sent.linkGrace, resetPulse := near 1 1000 sent.resetPulse
          minOff := near 10 10000 sent.minOff, dischargeTimeout := near 100 30000 sent.dischargeTimeout
          ramp := near 1 1000 sent.ramp, training := near 10 10000 sent.training
          currentLimit := near 500 20000 sent.currentLimit, demand := near 1 255 sent.demand }
      let status : Byte := if taken = sent then 0x00 else 0x01
      let t := s.setSlot i { sl with policy := taken }
      let done := exec (.slotSet (slotByte i) r) s
      (wrong → done = .next (s.answering 0x83 0x03 []))
      ∧ (¬ wrong →
          (sl.chan.hold = none ∨ taken.quota ≤ sl.policy.quota ∨ i ∈ s.poolWait ∨ ¬ sl.serving
              ∨ sl.chan.linkUp = false →
            done = .next (t.answering 0x83 status []))
          ∧ (∀ h, sl.chan.hold = some h → sl.policy.quota < taken.quota → i ∉ s.poolWait → sl.serving →
              sl.chan.linkUp = true → done = .next ((t.reoffers i h).answering 0x83 status []))))
    ∧ (∀ pairs : List (BitVec 40 × BitVec 40), pairs.length ≤ 5 →
        ((4 < pairs.length ∨ ∃ p ∈ pairs, 2 ^ 36 ≤ p.1.toNat ∨ 2 ^ 36 ≤ p.2.toNat ∨ p.2.toNat < p.1.toNat) →
          exec (.winSet (slotByte i) pairs) s = .next (s.answering 0x89 0x03 []))
        ∧ (pairs.length ≤ 4 → (∀ p ∈ pairs, p.1.toNat ≤ p.2.toNat ∧ p.2.toNat < 2 ^ 36) →
            ∃ w : Vector (Option Span) 4,
              (∀ k : Fin 4, w[k] = (pairs[k.val]?).map fun p => { base := p.1.toNat, limit := p.2.toNat })
              ∧ exec (.winSet (slotByte i) pairs) s = .next
                  ((s.setSlot i { sl with permit.windows := w }).answering 0x89 0x00 [])))
    ∧ (∀ pairs : List (BitVec 40 × BitVec 40), pairs.length ≤ 5 →
        ((2 < pairs.length ∨ ∃ p ∈ pairs, 2 ^ 36 ≤ p.1.toNat ∨ 2 ^ 36 ≤ p.2.toNat ∨ p.2.toNat < p.1.toNat) →
          exec (.denySet 0xFF pairs) s = .next (s.answering 0x8A 0x03 []))
        ∧ (pairs.length ≤ 2 → (∀ p ∈ pairs, p.1.toNat ≤ p.2.toNat ∧ p.2.toNat < 2 ^ 36) →
            ∃ w : Vector (Option Span) 2,
              (∀ k : Fin 2, w[k] = (pairs[k.val]?).map fun p => { base := p.1.toNat, limit := p.2.toNat })
              ∧ exec (.denySet 0xFF pairs) s = .next (({ s with deny := w } : State).answering 0x8A 0x00 [])))
    ∧ (∀ ranges : List (BitVec 16 × BitVec 16), ranges.length ≤ 14 →
        ((8 < ranges.length ∨ ∃ p ∈ ranges, 1023 < p.1.toNat ∨ 1023 < p.2.toNat ∨ p.2.toNat < p.1.toNat) →
          exec (.filterSet 0xFF ranges) s = .next (s.answering 0x90 0x03 []))
        ∧ (ranges.length ≤ 8 → (∀ p ∈ ranges, p.1.toNat ≤ p.2.toNat ∧ p.2.toNat ≤ 1023) →
            exec (.filterSet 0xFF ranges) s = .next
              (({ s with filter := ranges.map fun p => { base := p.1.toNat, limit := p.2.toNat } } : State).answering
                0x90 0x00 [])))
    ∧ ∀ p : RawScore,
        let epoch := if p.decayEpoch = 0 then 1 else if 1000 < p.decayEpoch.toNat then 1000 else p.decayEpoch.toNat
        (p.warn = 0 ∨ p.fence.toNat ≤ p.warn.toNat → exec (.scoreSet 0xFF p) s = .next (s.answering 0x8C 0x03 []))
        ∧ (p.warn ≠ 0 → p.warn.toNat < p.fence.toNat →
            exec (.scoreSet 0xFF p) s = .next
              (({ s with
                  scorer :=
                    { timeout := p.timeout.toNat, stray := p.stray.toNat, malformed := p.malformed.toNat
                      errant := p.errant.toNat, linkDown := p.linkDown.toNat, warn := p.warn.toNat
                      fence := p.fence.toNat, decayEpoch := epoch, decayTimer := s.scorer.decayTimer } } : State).answering
                0x8C (if epoch = p.decayEpoch.toNat then 0x00 else 0x01) []))

/-- R138, R140 to R143: BUDGET.SET takes its value, 0 as 1 with CLAMPED, and a grant check follows. A check works through the queue from
its head: an empty queue ends it; a head whose demand is above the budget leaves with the BUDGET failure, an ATTEMPT report and
QUARANTINED (R90), and the check goes on; a head that fits the budget beside the granted sum, and whose rail partner is not granted, is
granted with its recorded demand and enters RAMPING, and the check goes on; any other head ends it, every place kept. Here the head's slot
stands in the queue once. The model's readings: a request command is its complete frame (log 18), the kind of an attempt is forgotten in
QUARANTINED and at an abandonment (log 30), a report's stamp is taken after the count's step (log 34). -/
def Obligations.BudgetSetRunsAGrantCheck : Prop :=
  (∀ (s : State) (b : Byte), s.linkReady →
    exec (.budgetSet 0xFF b) s = .next
      (({ s with arbiter.budget := if b = 0 then 1 else b.toNat } : State).grantCheck.answering 0x8B
        (if b = 0 then 0x01 else 0x00) []))
  ∧ ∀ s : State, (s.arbiter.queue = [] → s.grantCheck = s)
    ∧ ∀ (p : Place) (rest : List Place), s.arbiter.queue = p :: rest → (∀ q ∈ rest, q.slot ≠ p.slot) →
      let t : State := { s with arbiter.queue := rest }
      (s.arbiter.budget < p.demand → s.grantCheck = (t.failsBudget p.slot).grantCheck)
      ∧ (p.demand ≤ s.arbiter.budget →
          (s.arbiter.admits p → s.grantCheck = (t.goesRamping p).grantCheck)
          ∧ (¬ s.arbiter.admits p → s.grantCheck = s))

/-- R131, R133, R134, R136: IMG.PUT is refused with STATE outside OFF, ISOLATED and QUARANTINED, with RANGE for a field out of range, with
FULL for a new offset without room, and else merges or appends; IMG.DROP clears the image, and in RESTORING with no write outstanding the
replay is then done, and the slot enters ONLINE. The model's readings: a collision at a re-offer is refused (log 11), a request command is
its complete frame (log 18), a clearing stops the re-send timer (log 25), the replay sequence is state (log 27), a report's stamp is taken
after the count's step (log 34). -/
def Obligations.ImageRequestsChangeTheImage : Prop :=
  ∀ (s : State) (i : SlotId) (o : BitVec 16) (v : Dword) (m : Byte), s.linkReady →
    let sl := s.slot i
    let taken := sl.ctl.state = .off ∨ sl.ctl.state = .isolated ∨ sl.ctl.state = .quarantined
    let fields := 1 ≤ o.toNat ∧ o.toNat ≤ 1023 ∧ 1 ≤ m.toNat ∧ m.toNat ≤ 15
    let offset : Offset := BitVec.ofNat 10 o.toNat
    let mask : ByteMask := BitVec.ofNat 4 m.toNat
    let done := exec (.imgPut (slotByte i) o v m) s
    (¬ taken → done = .next (s.answering 0x8E 0x02 []))
    ∧ (taken → ¬ fields → done = .next (s.answering 0x8E 0x03 []))
    ∧ (taken → fields →
        ((∃ e ∈ sl.store.entries, e.offset = offset) →
          done = .next ((s.setSlot i { sl with store := sl.store.mergeAt offset v mask }).answering 0x8E 0x00 []))
        ∧ ((∀ e ∈ sl.store.entries, e.offset ≠ offset) →
            (sl.store.entries.length < 48 →
              done = .next ((s.setSlot i { sl with store := sl.store.append offset v mask }).answering 0x8E 0x00 []))
            ∧ (48 ≤ sl.store.entries.length → done = .next (s.answering 0x8E 0x04 []))))
    ∧ (sl.ctl.state ≠ .restoring ∨ sl.store.outstanding ≠ none →
        exec (.imgDrop (slotByte i)) s = .next
          ((s.setSlot i { sl with store.entries := [], store.incomplete := false, store.sequence := [] }).answering 0x8F
            0x00 []))
    ∧ (sl.ctl.state = .restoring → sl.store.outstanding = none →
        exec (.imgDrop (slotByte i)) s = .next
          (((s.setSlot i
              { sl with store := { sl.store.stopped with entries := [], incomplete := false } }).goesOnline i).answering
            0x8F 0x00 []))

/-- R81, R174, R175, R191, R194: PIN.MODE takes a mode in the states that allow it and is refused with RANGE or STATE otherwise; leaving
LIVE in ISOLATED under ASK suspends the decision timer; PIN.LOAD loads the held image; PART.RESET changes nothing until its reply is sent.
That a blink ends in FLOAT and begins anew after it is the model's reading of R170 (log 20). The model's readings: a request command is
its complete frame (log 18), the policy of a stay in ISOLATED is state (log 32). -/
def Obligations.PinRequestsActOnThePins : Prop :=
  ∀ (s : State) (i : SlotId), s.linkReady →
    let sl := s.slot i
    let asking := sl.ctl.state = .isolated ∧ sl.ctl.isoPolicy = some .ask
    let mode := fun x : Byte => if x = 0 then PinMode.live else if x = 1 then .hold else .float
    let allowed := fun m : PinMode => m = .live
      ∨ (sl.ctl.state = .empty ∨ sl.ctl.state = .off ∨ sl.ctl.state = .quarantined)
      ∨ (m = .hold ∧ sl.ctl.state = .isolated)
    (∀ x : Byte, 2 < x.toNat → exec (.pinMode (slotByte i) x) s = .next (s.answering 0x91 0x03 []))
    ∧ (∀ x : Byte, x.toNat ≤ 2 →
        (mode x = sl.pins.mode → exec (.pinMode (slotByte i) x) s = .next (s.answering 0x91 0x00 []))
        ∧ (mode x ≠ sl.pins.mode →
            (¬ allowed (mode x) → exec (.pinMode (slotByte i) x) s = .next (s.answering 0x91 0x02 []))
            ∧ (allowed (mode x) → ¬ asking → exec (.pinMode (slotByte i) x) s = .next
                ((s.moved i { sl with pins.mode := mode x }).answering 0x91 0x00 []))
            ∧ (allowed (mode x) → asking → exec (.pinMode (slotByte i) x) s = .next
                ((s.moved i
                  { sl with
                    pins.mode := mode x
                    ctl.decisionTimer :=
                      if mode x = .live then .running (s.now + BitVec.ofNat 32 (1000 * sl.policy.decisionTime))
                      else .suspended }).answering 0x91 0x00 []))))
    ∧ (∀ p k c a : Byte, (1 < p.toNat ∨ 1 < k.toNat ∨ 1 < c.toNat ∨ 2 < a.toNat) →
        exec (.pinLoad (slotByte i) p k c a) s = .next (s.answering 0x92 0x03 []))
    ∧ (∀ p k c a : Byte, p.toNat ≤ 1 → k.toNat ≤ 1 → c.toNat ≤ 1 → a.toNat ≤ 2 →
        exec (.pinLoad (slotByte i) p k c a) s = .next
          ((s.moved i
            { sl with
              pins.held :=
                { pwren := p = 1, clken := k = 1, crst := c = 1
                  attn := if a = 0 then .off else if a = 1 then .on else .blink } }).answering 0x92 0x00 []))
    ∧ exec (.partReset 0xFF) s = .next
        { s.answering 0x96 0x00 [] with
          link.inProcess := (s.answering 0x96 0x00 []).link.inProcess.map fun p => { p with partReset := true } }

/-- R58, R82, R83, R85, R88, R108, R111, R113, R190: FENCE fences a slot in ONLINE or SUSPECT; RECOVER starts an attempt in ISOLATED, and
a COLD one in QUARANTINED with a card present; QUAR sends ISOLATED to QUARANTINED; PWR.ON brings a slot up from OFF; PWR.OFF fences,
powers down or abandons an attempt (R91, R96, R98, R100) by the state. Each is refused with STATE (0x02) or RANGE (0x03), without effect,
where its rule says so. That PWR.OFF with no change to make (EMPTY, OFF, DISCHARGING with target OFF) records no reason is the model's
reading of R113 (log 12). The model's readings: a waiting slot that may not proceed is passed over (log 10), a collision at a re-offer is
refused (log 11), a request command is its complete frame (log 18), the kind of an attempt is forgotten in QUARANTINED and at an
abandonment (log 30), the policy of a stay in ISOLATED is state (log 32), a departing head's grant check comes before the entry to
DISCHARGING (log 33), a report's stamp is taken after the count's step (log 34). -/
def Obligations.MovingRequestsMoveTheSlot : Prop :=
  ∀ (s : State) (i : SlotId), s.linkReady →
    let sl := s.slot i
    (sl.serving →
      exec (.fence (slotByte i)) s = .next ((s.fences i .command .recover).answering 0x84 0x00 [])
      ∧ (sl.pins.mode = .live →
          exec (.pwrOff (slotByte i)) s = .next ((s.fences i .command .off).answering 0x88 0x00 [])))
    ∧ (¬ sl.serving → exec (.fence (slotByte i)) s = .next (s.answering 0x84 0x02 []))
    ∧ (∀ k : Byte, 2 < k.toNat → exec (.recover (slotByte i) k) s = .next (s.answering 0x85 0x03 []))
    ∧ (∀ k : Byte, k.toNat ≤ 2 →
        (sl.pins.mode ≠ .live ∨ sl.ctl.state ≠ .isolated ∧ (sl.ctl.state ≠ .quarantined ∨ sl.ctl.present = false) →
          exec (.recover (slotByte i) k) s = .next (s.answering 0x85 0x02 []))
        ∧ (sl.pins.mode = .live → sl.ctl.state = .isolated →
            exec (.recover (slotByte i) k) s = .next
              ((s.recovers i (if k = 0 then .warm else if k = 1 then .cold else sl.policy.firstKind)).answering
                0x85 0x00 []))
        ∧ (sl.pins.mode = .live → sl.ctl.state = .quarantined → sl.ctl.present = true →
            exec (.recover (slotByte i) k) s = .next ((s.recovers i .cold).answering 0x85 0x00 [])))
    ∧ (sl.ctl.state = .isolated → exec (.quar (slotByte i)) s = .next ((s.goesQuarantined i .ordered).answering 0x86 0x00 []))
    ∧ (sl.ctl.state ≠ .isolated → exec (.quar (slotByte i)) s = .next (s.answering 0x86 0x02 []))
    ∧ (sl.ctl.state ≠ .off ∨ sl.pins.mode ≠ .live → exec (.pwrOn (slotByte i)) s = .next (s.answering 0x87 0x02 []))
    ∧ (sl.ctl.state = .off → sl.pins.mode = .live →
        exec (.pwrOn (slotByte i)) s = .next ((s.bringsUp i .command).answering 0x87 0x00 []))
    ∧ (sl.pins.mode ≠ .live ∨ sl.ctl.state = .fencing →
        exec (.pwrOff (slotByte i)) s = .next (s.answering 0x88 0x02 []))
    ∧ (sl.pins.mode = .live →
        (sl.ctl.state = .empty ∨ sl.ctl.state = .off →
          exec (.pwrOff (slotByte i)) s = .next (s.answering 0x88 0x00 []))
        ∧ (sl.ctl.state = .isolated →
            exec (.pwrOff (slotByte i)) s = .next
              ((s.discharges i { sl.ctl with reason := some .command } .off).answering 0x88 0x00 []))
        ∧ (sl.ctl.state = .quarantined →
            let t := s.setSlot i { sl with ctl.reason := some .command }
            (sl.ctl.present = true → exec (.pwrOff (slotByte i)) s = .next ((t.goesOff i).answering 0x88 0x00 []))
            ∧ (sl.ctl.present = false → exec (.pwrOff (slotByte i)) s = .next ((t.goesEmpty i).answering 0x88 0x00 [])))
        ∧ (sl.ctl.state ∈ [.discharging, .powerWait, .ramping, .resetting, .training, .restoring] →
            exec (.pwrOff (slotByte i)) s = .next ((s.abandons i .command).answering 0x88 0x00 [])))
end

