-- ==== Sys2Proof/Laws/State.lean ====
section
/-! SUPPORT. One lemma per field per update of State: a change of one slot leaves the other slots and every shared field as they were. -/

namespace Sys2Proof.Machine

@[simp] theorem State.slot_setSlot_self (s : State) (i : SlotId) (x : Slot) : (s.setSlot i x).slot i = x := by
  simp [State.slot, State.setSlot]

theorem State.slot_setSlot_of_ne (s : State) {i j : SlotId} (x : Slot) (h : j ≠ i) : (s.setSlot i x).slot j = s.slot j := by
  have h' : i.val ≠ j.val := fun e => h (Fin.ext e.symm)
  simp [State.slot, State.setSlot, h']

theorem State.slot_setSlot (s : State) (i j : SlotId) (x : Slot) :
    (s.setSlot i x).slot j = if j = i then x else s.slot j := by
  by_cases h : j = i
  · subst h; simp
  · simp [h, State.slot_setSlot_of_ne]

/-- Two states with the same slots one by one have the same slots. -/
theorem State.slots_ext {s t : State} (h : ∀ i, s.slot i = t.slot i) : s.slots = t.slots := by
  apply Vector.ext
  intro k hk
  exact h ⟨k, hk⟩

@[simp] theorem State.setSlot_slot (s : State) (i : SlotId) : s.setSlot i (s.slot i) = s := by
  have : (s.setSlot i (s.slot i)).slots = s.slots := by
    apply State.slots_ext
    intro j
    rw [State.slot_setSlot]
    split
    · simp_all
    · rfl
  show ({ s with slots := (s.setSlot i (s.slot i)).slots } : State) = s
  rw [this]

@[simp] theorem State.setSlot_setSlot (s : State) (i : SlotId) (x y : Slot) :
    (s.setSlot i x).setSlot i y = s.setSlot i y := by
  have : ((s.setSlot i x).setSlot i y).slots = (s.setSlot i y).slots := by
    apply State.slots_ext
    intro j
    simp only [State.slot_setSlot]
    split <;> rfl
  show ({ s with slots := ((s.setSlot i x).setSlot i y).slots } : State) = s.setSlot i y
  rw [this]
  rfl

@[simp] theorem State.slot_modSlot_self (s : State) (i : SlotId) (f : Slot → Slot) :
    (s.modSlot i f).slot i = f (s.slot i) := by simp [State.modSlot]

theorem State.slot_modSlot_of_ne (s : State) {i j : SlotId} (f : Slot → Slot) (h : j ≠ i) :
    (s.modSlot i f).slot j = s.slot j := by simp [State.modSlot, State.slot_setSlot_of_ne, h]

theorem State.slot_modSlot (s : State) (i j : SlotId) (f : Slot → Slot) :
    (s.modSlot i f).slot j = if j = i then f (s.slot i) else s.slot j := by simp [State.modSlot, State.slot_setSlot]

@[simp] theorem State.modSlot_modSlot (s : State) (i : SlotId) (f g : Slot → Slot) :
    (s.modSlot i f).modSlot i g = s.modSlot i fun sl => g (f sl) := by simp [State.modSlot]

@[simp] theorem State.slot_mapSlots (s : State) (i : SlotId) (f : Slot → Slot) :
    (s.mapSlots f).slot i = f (s.slot i) := by simp [State.mapSlots, State.slot]

@[simp] theorem State.setSlot_poolWait (s : State) (i : SlotId) (x : Slot) : (s.setSlot i x).poolWait = s.poolWait := rfl
@[simp] theorem State.setSlot_scorer (s : State) (i : SlotId) (x : Slot) : (s.setSlot i x).scorer = s.scorer := rfl
@[simp] theorem State.setSlot_filter (s : State) (i : SlotId) (x : Slot) : (s.setSlot i x).filter = s.filter := rfl
@[simp] theorem State.setSlot_deny (s : State) (i : SlotId) (x : Slot) : (s.setSlot i x).deny = s.deny := rfl
@[simp] theorem State.setSlot_arbiter (s : State) (i : SlotId) (x : Slot) : (s.setSlot i x).arbiter = s.arbiter := rfl
@[simp] theorem State.setSlot_monitor (s : State) (i : SlotId) (x : Slot) : (s.setSlot i x).monitor = s.monitor := rfl
@[simp] theorem State.setSlot_reports (s : State) (i : SlotId) (x : Slot) : (s.setSlot i x).reports = s.reports := rfl
@[simp] theorem State.setSlot_link (s : State) (i : SlotId) (x : Slot) : (s.setSlot i x).link = s.link := rfl
@[simp] theorem State.setSlot_elapsed (s : State) (i : SlotId) (x : Slot) : (s.setSlot i x).elapsed = s.elapsed := rfl
@[simp] theorem State.setSlot_porHeld (s : State) (i : SlotId) (x : Slot) : (s.setSlot i x).porHeld = s.porHeld := rfl
@[simp] theorem State.setSlot_cresetHeld (s : State) (i : SlotId) (x : Slot) : (s.setSlot i x).cresetHeld = s.cresetHeld := rfl
@[simp] theorem State.setSlot_freeCount (s : State) (i : SlotId) (x : Slot) : (s.setSlot i x).freeCount = s.freeCount := rfl
@[simp] theorem State.setSlot_pending (s : State) (i : SlotId) (x : Slot) : (s.setSlot i x).pending = s.pending := rfl

@[simp] theorem State.modSlot_poolWait (s : State) (i : SlotId) (f : Slot → Slot) : (s.modSlot i f).poolWait = s.poolWait := rfl
@[simp] theorem State.modSlot_scorer (s : State) (i : SlotId) (f : Slot → Slot) : (s.modSlot i f).scorer = s.scorer := rfl
@[simp] theorem State.modSlot_filter (s : State) (i : SlotId) (f : Slot → Slot) : (s.modSlot i f).filter = s.filter := rfl
@[simp] theorem State.modSlot_deny (s : State) (i : SlotId) (f : Slot → Slot) : (s.modSlot i f).deny = s.deny := rfl
@[simp] theorem State.modSlot_arbiter (s : State) (i : SlotId) (f : Slot → Slot) : (s.modSlot i f).arbiter = s.arbiter := rfl
@[simp] theorem State.modSlot_monitor (s : State) (i : SlotId) (f : Slot → Slot) : (s.modSlot i f).monitor = s.monitor := rfl
@[simp] theorem State.modSlot_reports (s : State) (i : SlotId) (f : Slot → Slot) : (s.modSlot i f).reports = s.reports := rfl
@[simp] theorem State.modSlot_link (s : State) (i : SlotId) (f : Slot → Slot) : (s.modSlot i f).link = s.link := rfl
@[simp] theorem State.modSlot_elapsed (s : State) (i : SlotId) (f : Slot → Slot) : (s.modSlot i f).elapsed = s.elapsed := rfl
@[simp] theorem State.modSlot_porHeld (s : State) (i : SlotId) (f : Slot → Slot) : (s.modSlot i f).porHeld = s.porHeld := rfl
@[simp] theorem State.modSlot_cresetHeld (s : State) (i : SlotId) (f : Slot → Slot) : (s.modSlot i f).cresetHeld = s.cresetHeld := rfl
@[simp] theorem State.modSlot_freeCount (s : State) (i : SlotId) (f : Slot → Slot) : (s.modSlot i f).freeCount = s.freeCount := rfl
@[simp] theorem State.modSlot_pending (s : State) (i : SlotId) (f : Slot → Slot) : (s.modSlot i f).pending = s.pending := rfl

@[simp] theorem State.mapSlots_poolWait (s : State) (f : Slot → Slot) : (s.mapSlots f).poolWait = s.poolWait := rfl
@[simp] theorem State.mapSlots_scorer (s : State) (f : Slot → Slot) : (s.mapSlots f).scorer = s.scorer := rfl
@[simp] theorem State.mapSlots_filter (s : State) (f : Slot → Slot) : (s.mapSlots f).filter = s.filter := rfl
@[simp] theorem State.mapSlots_deny (s : State) (f : Slot → Slot) : (s.mapSlots f).deny = s.deny := rfl
@[simp] theorem State.mapSlots_arbiter (s : State) (f : Slot → Slot) : (s.mapSlots f).arbiter = s.arbiter := rfl
@[simp] theorem State.mapSlots_monitor (s : State) (f : Slot → Slot) : (s.mapSlots f).monitor = s.monitor := rfl
@[simp] theorem State.mapSlots_reports (s : State) (f : Slot → Slot) : (s.mapSlots f).reports = s.reports := rfl
@[simp] theorem State.mapSlots_link (s : State) (f : Slot → Slot) : (s.mapSlots f).link = s.link := rfl
@[simp] theorem State.mapSlots_elapsed (s : State) (f : Slot → Slot) : (s.mapSlots f).elapsed = s.elapsed := rfl
@[simp] theorem State.mapSlots_porHeld (s : State) (f : Slot → Slot) : (s.mapSlots f).porHeld = s.porHeld := rfl
@[simp] theorem State.mapSlots_cresetHeld (s : State) (f : Slot → Slot) : (s.mapSlots f).cresetHeld = s.cresetHeld := rfl
@[simp] theorem State.mapSlots_freeCount (s : State) (f : Slot → Slot) : (s.mapSlots f).freeCount = s.freeCount := rfl
@[simp] theorem State.mapSlots_pending (s : State) (f : Slot → Slot) : (s.mapSlots f).pending = s.pending := rfl

/-! A change of a shared field leaves the slots as they were. -/

@[simp] theorem State.slot_with_poolWait (s : State) (i : SlotId) (x : List SlotId) : ({ s with poolWait := x } : State).slot i = s.slot i := rfl
@[simp] theorem State.slot_with_scorer (s : State) (i : SlotId) (x : Scorer) : ({ s with scorer := x } : State).slot i = s.slot i := rfl
@[simp] theorem State.slot_with_filter (s : State) (i : SlotId) (x : List Span) : ({ s with filter := x } : State).slot i = s.slot i := rfl
@[simp] theorem State.slot_with_deny (s : State) (i : SlotId) (x : Vector (Option Span) 2) : ({ s with deny := x } : State).slot i = s.slot i := rfl
@[simp] theorem State.slot_with_arbiter (s : State) (i : SlotId) (x : Arbiter) : ({ s with arbiter := x } : State).slot i = s.slot i := rfl
@[simp] theorem State.slot_with_monitor (s : State) (i : SlotId) (x : Monitor) : ({ s with monitor := x } : State).slot i = s.slot i := rfl
@[simp] theorem State.slot_with_reports (s : State) (i : SlotId) (x : ReportQueue) : ({ s with reports := x } : State).slot i = s.slot i := rfl
@[simp] theorem State.slot_with_link (s : State) (i : SlotId) (x : Link) : ({ s with link := x } : State).slot i = s.slot i := rfl
@[simp] theorem State.slot_with_elapsed (s : State) (i : SlotId) (x : Nat) : ({ s with elapsed := x } : State).slot i = s.slot i := rfl
@[simp] theorem State.slot_with_porHeld (s : State) (i : SlotId) (x : Bool) : ({ s with porHeld := x } : State).slot i = s.slot i := rfl
@[simp] theorem State.slot_with_cresetHeld (s : State) (i : SlotId) (x : Bool) : ({ s with cresetHeld := x } : State).slot i = s.slot i := rfl
@[simp] theorem State.slot_with_freeCount (s : State) (i : SlotId) (x : Nat) : ({ s with freeCount := x } : State).slot i = s.slot i := rfl
@[simp] theorem State.slot_with_pending (s : State) (i : SlotId) (x : List Instr) : ({ s with pending := x } : State).slot i = s.slot i := rfl

@[simp] theorem State.now_setSlot (s : State) (i : SlotId) (x : Slot) : (s.setSlot i x).now = s.now := rfl
@[simp] theorem State.now_modSlot (s : State) (i : SlotId) (f : Slot → Slot) : (s.modSlot i f).now = s.now := rfl
@[simp] theorem State.after_setSlot (s : State) (i : SlotId) (x : Slot) (n : Nat) : (s.setSlot i x).after n = s.after n := rfl
@[simp] theorem State.after_modSlot (s : State) (i : SlotId) (f : Slot → Slot) (n : Nat) :
    (s.modSlot i f).after n = s.after n := rfl

end Sys2Proof.Machine
end

