-- ==== Sys2Proof/Laws/Ops.lean ====
section
/-! SUPPORT. What the shared operations of Machine/Ops.lean can do, said once: reports, outputs, the sideband drive. -/

namespace Sys2Proof.Machine

/-! ### Reports -/

/-- A report offered changes the report queue and nothing else (R196, R202). -/
theorem State.offerReport_eq (s : State) (r : Report) :
    s.offerReport r = { s with reports := s.reports.offered s.mute r } := by
  unfold State.offerReport ReportQueue.offered State.mute Config.reportCap
  split
  · simp
  · split <;> simp

theorem State.report_eq (s : State) (kind : ReportKind) (i : SlotId) (reason : Option Reason) (value : Option Nat) :
    s.report kind i reason value = { s with reports := s.reports.offered s.mute (s.note kind i reason value) } := by
  unfold State.report
  rw [State.offerReport_eq]
  rfl

/-- A STATE report sets the last reported state and offers the record (R197). -/
theorem State.reportState_eq (s : State) (i : SlotId) (reason : Option Reason) (value : Option Nat) :
    s.reportState i reason value =
      { (s.modSlot i fun sl => { sl with ctl.lastReported := sl.ctl.state }) with
        reports := s.reports.offered s.mute (s.stateNote i (s.slot i).ctl.state reason value) } := by
  unfold State.reportState
  rw [State.offerReport_eq]
  rfl

@[simp] theorem State.slot_offerReport (s : State) (r : Report) (j : SlotId) : (s.offerReport r).slot j = s.slot j := by
  rw [State.offerReport_eq]; rfl

@[simp] theorem State.slot_report (s : State) (kind : ReportKind) (i : SlotId) (reason : Option Reason) (value : Option Nat)
    (j : SlotId) : (s.report kind i reason value).slot j = s.slot j := by rw [State.report_eq]; rfl

/-- A queue that is sound stays so when a report is offered (R196). -/
theorem ReportQueue.sound_offered {q : ReportQueue} (h : q.sound) (held : Bool) (r : Report) : (q.offered held r).sound := by
  obtain ⟨h₁, h₂⟩ := h
  unfold ReportQueue.offered ReportQueue.sound
  split
  · exact ⟨h₁, h₂⟩
  · split
    · simp; omega
    · simp; omega

/-! ### The sideband drive -/

theorem Monitor.slot_eq_iff (m : Monitor) (i : SlotId) : m.slot = i ↔ m.channel.val / 3 = i.val := by
  simp [Monitor.slot, Fin.ext_iff]

/-- A power-off touches the slot's controller and rail results, and the mark of the conversion in progress. -/
theorem State.setPowerOff_eq (s : State) (i : SlotId) :
    s.setPowerOff i =
      { (s.setSlot i
          { s.slot i with
            ctl := (s.slot i).ctl.powerOffAt s.now (s.slot i).policy.minOff
            rails := (s.slot i).rails.after false true }) with
        monitor := s.monitor.after i false true } := by
  have hr : (s.slot i).rails.beforeOff = (s.slot i).rails.after false true := by
    simp [Rails.beforeOff, Rails.after, RailResult.after]
  unfold State.setPowerOff
  simp only [State.modSlot_monitor]
  by_cases h : s.monitor.slot = i
  · have h' := (s.monitor.slot_eq_iff i).1 h
    simp [h, h', ← hr, Monitor.after, State.modSlot, State.setSlot, Controller.powerOffAt, State.afterMs,
      State.after]
  · have h' : ¬ s.monitor.channel.val / 3 = i.val := fun c => h ((s.monitor.slot_eq_iff i).2 c)
    simp [h, h', ← hr, Monitor.after, State.modSlot, State.setSlot, Controller.powerOffAt, State.afterMs,
      State.after]

/-- A PWREN change touches the slot's rail marks and run count, and the mark of the conversion in progress (R165). -/
theorem State.pwrenChanged_eq (s : State) (i : SlotId) :
    s.pwrenChanged i =
      { (s.setSlot i { s.slot i with rails := (s.slot i).rails.after true false }) with
        monitor := s.monitor.after i true false } := by
  have hr : { (s.slot i).rails.clearMarks with runCount := 0 } = (s.slot i).rails.after true false := by
    simp [Rails.clearMarks, Rails.after, RailResult.after]
  unfold State.pwrenChanged
  simp only [State.modSlot_monitor]
  by_cases h : s.monitor.slot = i
  · have h' := (s.monitor.slot_eq_iff i).1 h
    simp [h, h', ← hr, Monitor.after, State.modSlot, State.setSlot]
  · have h' : ¬ s.monitor.channel.val / 3 = i.val := fun c => h ((s.monitor.slot_eq_iff i).2 c)
    simp [h, h', ← hr, Monitor.after, State.modSlot, State.setSlot]

/-- A blink's start or end touches the pin unit and nothing else (R170). -/
theorem State.followBlink_eq (s : State) (i : SlotId) (before : Bool) :
    s.followBlink i before =
      s.setSlot i { s.slot i with pins := (s.slot i).pins.after before (s.slot i).blinks s.now } := by
  have hs : s.setSlot i (s.slot i) = s := s.setSlot_slot i
  unfold State.followBlink PinUnit.after
  cases h : (s.slot i).blinks
  · simp [State.modSlot, State.setSlot]
  · cases before
    · simp [State.modSlot, State.setSlot, State.after, Config.blinkMicros]
    · exact hs.symm

/-- Rail results after two changes at one instant. -/
theorem Rails.after_after (r : Rails) (a b c d : Bool) : (r.after a b).after c d = r.after (a || c) (b || d) := by
  cases a <;> cases b <;> cases c <;> cases d <;> simp [Rails.after, RailResult.after, Function.comp_def]

theorem Rails.after_false (r : Rails) : r.after false false = r := by
  simp [Rails.after, RailResult.after]

theorem Monitor.after_after (m : Monitor) (i : SlotId) (a b c d : Bool) :
    (m.after i a b).after i c d = m.after i (a || c) (b || d) := by
  cases a <;> cases b <;> cases c <;> cases d <;> by_cases h : m.channel.val / 3 = i.val <;>
    simp [Monitor.after, h]

theorem Monitor.after_false (m : Monitor) (i : SlotId) : m.after i false false = m := by simp [Monitor.after]

/-- The blink and the PWREN level read the pin mode, the held image, the board's level, the state and the power-cut mark only. -/
theorem Slot.blinks_congr {a b : Slot} (h₁ : a.pins.mode = b.pins.mode) (h₂ : a.pins.held = b.pins.held)
    (h₃ : a.ctl.state = b.ctl.state) (h₄ : a.ctl.powerCut = b.ctl.powerCut) : a.blinks = b.blinks := by
  simp only [Slot.blinks, Slot.drive, h₁, h₂, h₃, h₄]

/-- A slot set twice, with the monitor set between. -/
theorem State.setSlot_with_monitor (s : State) (i : SlotId) (x : Slot) (m : Monitor) :
    ({ s with monitor := m } : State).setSlot i x = { s.setSlot i x with monitor := m } := rfl

/-- `drive` in one closed form (R170, R165, R60). -/
theorem State.drive_eq_moved (s : State) (i : SlotId) (f : Slot → Slot) : s.drive i f = s.moved i (f (s.slot i)) := by
  have hb : ∀ (a : Slot) (c : Controller) (r : Rails), c.state = a.ctl.state → c.powerCut = a.ctl.powerCut →
      ({ a with ctl := c, rails := r } : Slot).blinks = a.blinks := fun a c r h₁ h₂ => Slot.blinks_congr rfl rfl h₁ h₂
  have hr : ∀ (a : Slot) (r : Rails), ({ a with rails := r } : Slot).blinks = a.blinks :=
    fun a r => Slot.blinks_congr rfl rfl rfl rfl
  unfold State.drive State.moved
  dsimp only
  generalize f (s.slot i) = new
  generalize s.slot i = old
  cases ho : old.pwren <;> cases hn : new.pwren <;>
    simp only [State.followBlink_eq, State.pwrenChanged_eq, State.setPowerOff_eq, State.setSlot_with_monitor,
      State.slot_setSlot_self, State.setSlot_setSlot, State.slot_with_monitor, Rails.after_after, Rails.after_false,
      Monitor.after_after, Monitor.after_false, hr, hb, Controller.powerOffAt, Bool.not_false, Bool.not_true,
      Bool.and_true, Bool.and_false, if_true, if_false, Bool.or_true, Bool.or_false, bne_self_eq_false, reduceCtorEq,
      State.setSlot_monitor]
  all_goals rfl

end Sys2Proof.Machine
end

