-- ==== Sys2Proof/Laws/Service.lean ====
section
/-! SUPPORT. What it means that a slot is in service, the pending list seen by a tag, and when a held request may proceed. -/

namespace Sys2Proof.Machine

/-- R5: ONLINE and SUSPECT are the states in which the gate is open. -/
theorem SlotState.isOpen_iff (st : SlotState) : st.isOpen = true ↔ st = .online ∨ st = .suspect := by
  cases st <;> simp [SlotState.isOpen]

theorem SlotState.isOpen_false_iff (st : SlotState) : st.isOpen = false ↔ ¬ (st = .online ∨ st = .suspect) := by
  cases st <;> simp [SlotState.isOpen]

theorem Slot.inService_iff (sl : Slot) : sl.inService = true ↔ sl.serving := sl.ctl.state.isOpen_iff

theorem Slot.inService_of_serving {sl : Slot} (h : sl.serving) : sl.inService = true := sl.inService_iff.2 h

theorem Slot.inService_of_not_serving {sl : Slot} (h : ¬ sl.serving) : sl.inService = false :=
  sl.ctl.state.isOpen_false_iff.2 h

theorem Slot.isOpen_of_serving {sl : Slot} (h : sl.serving) : sl.ctl.state.isOpen = true := sl.inService_iff.2 h

theorem Slot.isOpen_of_not_serving {sl : Slot} (h : ¬ sl.serving) : sl.ctl.state.isOpen = false :=
  sl.ctl.state.isOpen_false_iff.2 h

/-! ### The pending list -/

theorem Slot.pendingTag_false {sl : Slot} {tag : Tag} (h : ∀ e ∈ sl.entries, e.tag ≠ tag) : sl.pendingTag tag = false := by
  simpa [Slot.pendingTag] using h

theorem Slot.pendingTag_true {sl : Slot} {tag : Tag} (h : ∃ e ∈ sl.entries, e.tag = tag) : sl.pendingTag tag = true := by
  simpa [Slot.pendingTag] using h

theorem find_entry {before after : List Entry} {e : Entry} {p : Entry → Bool} (h : ∀ x ∈ before, p x = false)
    (he : p e = true) : (before ++ e :: after).find? p = some e := by
  rw [List.find?_append, List.find?_eq_none.2]
  · simp [he]
  · intro x hx
    simp [h x hx]

theorem erase_entry {before after : List Entry} {e : Entry} {p : Entry → Bool} (h : ∀ x ∈ before, p x = false)
    (he : p e = true) : (before ++ e :: after).eraseP p = before ++ after := by
  rw [List.eraseP_append_right]
  · simp [he]
  · intro x hx
    simp [h x hx]

/-! ### Fill answers -/

theorem FillMode.answer_eq (m : FillMode) (tag : Tag) (n : Nat) : m.answer tag n = fillCompletion m tag n := by
  cases m <;> simp [FillMode.answer, fillCompletion]

theorem Entry.fillDwords_eq (e : Entry) : (if e.kind.isRead then e.owed - e.delivered else 0) = e.fillDwords := by
  cases h : e.kind <;> simp [EntryKind.isRead, Entry.fillDwords, h]

/-! ### Held requests -/

/-- With nothing in the hold an offer changes nothing (R9). -/
theorem State.offerHeld_none {s : State} {i : SlotId} (h : (s.slot i).chan.hold = none) : s.offerHeld i = s := by
  simp [State.offerHeld, h]

/-- A slot out of service keeps its held request (R9). -/
theorem State.offerHeld_closed {s : State} {i : SlotId} (h : (s.slot i).inService = false) : s.offerHeld i = s := by
  unfold State.offerHeld
  split
  · rfl
  · simp [Slot.holdMayProceed, h]

/-- R9: a held request may proceed in service with the card link UP. -/
theorem Slot.holdMayProceed_iff (sl : Slot) : sl.holdMayProceed = true ↔ sl.serving ∧ sl.chan.linkUp = true := by
  simp [Slot.holdMayProceed, Slot.inService_iff]

end Sys2Proof.Machine
end

