-- ==== Sys2Proof/Laws/Holds.lean ====
section
/-! SUPPORT. What the slot's two holds give as a gate closes (R11), as the closed forms of Safety.lean; and what it leaves of the slot. -/

namespace Sys2Proof.Machine

theorem Slot.tellsHost_absorbed (s : State) (i : SlotId) (x : Slot) (c : Completion) :
    ((s.setSlot i x).toHost i (.completion c)).countAbsorbed i =
      s.setSlot i (x.tellsHost (.completion c)).absorbedOne := by
  unfold State.toHost State.countAbsorbed
  simp only [State.modSlot, State.slot_setSlot_self, State.setSlot_setSlot]
  rfl

/-- R67 to R70, R121, R122: absorption. -/
theorem State.absorb_eq (s : State) (i : SlotId) (r : Request) : s.absorb i r = s.absorbs i r := by
  have ht : ∀ c, (s.toHost i (.completion c)).countAbsorbed i =
      s.setSlot i ((s.slot i).tellsHost (.completion c)).absorbedOne := by
    intro c
    have h := Slot.tellsHost_absorbed s i (s.slot i) c
    rwa [State.setSlot_slot] at h
  have hc : (((s.slot i).ctl.state = .fencing && !r.posted && (s.slot i).pendingTag r.tag) = true) ↔
      ((s.slot i).ctl.state = .fencing ∧ r.posted = false ∧ ∃ e ∈ (s.slot i).entries, e.tag = r.tag) := by
    simp [Slot.pendingTag, and_assoc]
  unfold State.absorb State.absorbs
  dsimp only
  by_cases h : (s.slot i).ctl.state = .fencing ∧ r.posted = false ∧ ∃ e ∈ (s.slot i).entries, e.tag = r.tag
  · rw [if_pos (hc.2 h), if_pos h, State.refuseTag, State.report_eq]
    rfl
  · rw [if_neg (fun k => h (hc.1 k)), if_neg h]
    cases r.kind
    case memRead => exact (ht _).trans (by rw [FillMode.answer_eq])
    case ioRead => exact (ht _).trans (by rw [FillMode.answer_eq])
    case ioWrite => exact (ht _).trans (by rw [FillMode.answer_eq])
    case cfgRead => exact ht _
    case cfgWrite => exact Slot.tellsHost_absorbed s i _ _
    case memWrite => rfl
    case message => rfl

/-- R11, R25. -/
theorem State.absorbHeld_eq (s : State) (i : SlotId) : s.absorbHeld i = s.absorbsHold i := by
  unfold State.absorbHeld State.absorbsHold
  cases (s.slot i).chan.hold with
  | none => rfl
  | some h => exact State.absorb_eq _ _ _

/-- R11, R71. -/
theorem State.blockHeld_eq (s : State) (i : SlotId) : s.blockHeld i = s.blocksHold i := by
  unfold State.blockHeld State.blocksHold State.blockCard
  cases (s.slot i).chan.cardHold with
  | none => rfl
  | some r =>
    dsimp only
    split
    · rfl
    · simp only [State.toCard, State.modSlot, State.slot_setSlot_self, State.setSlot_setSlot]
      rfl

/-- What an answer from a hold leaves of the slot: the controller, the pending list, the policy, the rails, the outbound set and the gate;
and of the part the time, the arbiter and the parameters. -/
structure State.Spares (s t : State) (i : SlotId) : Prop where
  ctl : (t.slot i).ctl = (s.slot i).ctl
  entries : (t.slot i).entries = (s.slot i).entries
  policy : (t.slot i).policy = (s.slot i).policy
  rails : (t.slot i).rails = (s.slot i).rails
  linkUp : (t.slot i).chan.linkUp = (s.slot i).chan.linkUp
  elapsed : t.elapsed = s.elapsed
  others : ∀ j, j ≠ i → t.slot j = s.slot j
  poolWait : ∀ j ∈ t.poolWait, j ∈ s.poolWait

theorem State.Spares.refl (s : State) (i : SlotId) : s.Spares s i :=
  ⟨rfl, rfl, rfl, rfl, rfl, rfl, fun _ _ => rfl, fun _ h => h⟩

theorem State.Spares.trans {s t u : State} {i : SlotId} (h : s.Spares t i) (k : t.Spares u i) : s.Spares u i :=
  ⟨k.ctl.trans h.ctl, k.entries.trans h.entries, k.policy.trans h.policy, k.rails.trans h.rails, k.linkUp.trans h.linkUp,
    k.elapsed.trans h.elapsed, fun j hj => (k.others j hj).trans (h.others j hj), fun j hj => h.poolWait j (k.poolWait j hj)⟩

theorem State.spares_setSlot (s : State) (i : SlotId) (x : Slot) (h₁ : x.ctl = (s.slot i).ctl)
    (h₂ : x.entries = (s.slot i).entries) (h₃ : x.policy = (s.slot i).policy) (h₄ : x.rails = (s.slot i).rails)
    (h₅ : x.chan.linkUp = (s.slot i).chan.linkUp) : s.Spares (s.setSlot i x) i := by
  have hx := State.slot_setSlot_self s i x
  exact ⟨by rw [hx, h₁], by rw [hx, h₂], by rw [hx, h₃], by rw [hx, h₄], by rw [hx, h₅], rfl,
    fun j hj => s.slot_setSlot_of_ne x hj, fun _ h => h⟩

/-- A change that leaves the slots and the time, and lets none join the pool wait list. -/
theorem State.Spares.shared {s t : State} {i : SlotId} (h₁ : t.slots = s.slots) (h₂ : t.elapsed = s.elapsed)
    (h₃ : ∀ j ∈ t.poolWait, j ∈ s.poolWait) : s.Spares t i := by
  have h : ∀ j, t.slot j = s.slot j := fun j => by simp only [State.slot, h₁]
  exact ⟨by rw [h], by rw [h], by rw [h], by rw [h], by rw [h], h₂, fun j _ => h j, h₃⟩

theorem State.absorbs_spares (s : State) (i : SlotId) (r : Request) : s.Spares (s.absorbs i r) i := by
  unfold State.absorbs
  dsimp only
  split
  · exact .trans (s.spares_setSlot i ((s.slot i).tellsHost _) rfl rfl rfl rfl rfl) (.shared rfl rfl fun _ h => h)
  · split <;> exact s.spares_setSlot i _ rfl rfl rfl rfl rfl

theorem State.absorbsHold_spares (s : State) (i : SlotId) : s.Spares (s.absorbsHold i) i := by
  unfold State.absorbsHold
  split
  · exact .refl s i
  · have h : ({ s with poolWait := s.poolWait.filter fun j => j ≠ i } : State).Spares _ i :=
      State.spares_setSlot _ i { s.slot i with chan.hold := none } rfl rfl rfl rfl rfl
    have k : s.Spares { s with poolWait := s.poolWait.filter fun j => j ≠ i } i :=
      .shared rfl rfl fun j hj => (List.mem_filter (p := fun j => decide (j ≠ i)).1 hj).1
    exact (k.trans h).trans (State.absorbs_spares _ i _)

theorem State.blocksHold_spares (s : State) (i : SlotId) : s.Spares (s.blocksHold i) i := by
  unfold State.blocksHold
  split
  · exact .refl s i
  · dsimp only
    split <;> exact s.spares_setSlot i _ rfl rfl rfl rfl rfl

end Sys2Proof.Machine
end

