-- ==== Sys2Proof/Laws/Moves.lean ====
section
/-! SUPPORT. Entries to states in closed form: what `moveTo`, `drive` and a STATE report leave together. -/

namespace Sys2Proof.Machine

/-- A move in one record: the gate by R5, the controller with the timers of its former state stopped. -/
theorem Slot.moveTo_eq (sl : Slot) (st : SlotState) :
    sl.moveTo st = { sl with chan.gateOpen := st.isOpen, ctl := sl.ctl.into st } := by
  cases st <;> simp [Slot.moveTo, Controller.into, SlotState.isOpen]

/-! ### What a moved part holds -/

theorem State.moved_slot (s : State) (i : SlotId) (x : Slot) :
    (s.moved i x).slot i =
      { x with
        ctl := if (s.slot i).pwren && !x.pwren then x.ctl.powerOffAt s.now x.policy.minOff else x.ctl
        rails := x.rails.after ((s.slot i).pwren != x.pwren) ((s.slot i).pwren && !x.pwren)
        pins := x.pins.after (s.slot i).blinks x.blinks s.now } := s.slot_setSlot_self i _

theorem State.moved_slot_of_ne (s : State) {i j : SlotId} (x : Slot) (h : j ≠ i) : (s.moved i x).slot j = s.slot j :=
  s.slot_setSlot_of_ne _ h

/-- What `moved` leaves of the controller in any field a power-off does not write. -/
theorem State.moved_state (s : State) (i : SlotId) (x : Slot) : ((s.moved i x).slot i).ctl.state = x.ctl.state := by
  rw [State.moved_slot]
  dsimp only
  split <;> rfl

theorem State.moved_reason (s : State) (i : SlotId) (x : Slot) : ((s.moved i x).slot i).ctl.reason = x.ctl.reason := by
  rw [State.moved_slot]
  dsimp only
  split <;> rfl

theorem State.moved_score (s : State) (i : SlotId) (x : Slot) : ((s.moved i x).slot i).ctl.score = x.ctl.score := by
  rw [State.moved_slot]
  dsimp only
  split <;> rfl

theorem State.moved_attempts (s : State) (i : SlotId) (x : Slot) :
    ((s.moved i x).slot i).ctl.attempts = x.ctl.attempts := by
  rw [State.moved_slot]
  dsimp only
  split <;> rfl

theorem State.moved_lastReported (s : State) (i : SlotId) (x : Slot) :
    ((s.moved i x).slot i).ctl.lastReported = x.ctl.lastReported := by
  rw [State.moved_slot]
  dsimp only
  split <;> rfl

theorem State.moved_origin (s : State) (i : SlotId) (x : Slot) : ((s.moved i x).slot i).ctl.origin = x.ctl.origin := by
  rw [State.moved_slot]
  dsimp only
  split <;> rfl

theorem State.moved_isoPolicy (s : State) (i : SlotId) (x : Slot) :
    ((s.moved i x).slot i).ctl.isoPolicy = x.ctl.isoPolicy := by
  rw [State.moved_slot]
  dsimp only
  split <;> rfl

theorem State.moved_powerCut (s : State) (i : SlotId) (x : Slot) :
    ((s.moved i x).slot i).ctl.powerCut = x.ctl.powerCut := by
  rw [State.moved_slot]
  dsimp only
  split <;> rfl

@[simp] theorem State.moved_chan (s : State) (i : SlotId) (x : Slot) : ((s.moved i x).slot i).chan = x.chan := by
  rw [State.moved_slot]

@[simp] theorem State.moved_entries (s : State) (i : SlotId) (x : Slot) : ((s.moved i x).slot i).entries = x.entries := by
  rw [State.moved_slot]

@[simp] theorem State.moved_store (s : State) (i : SlotId) (x : Slot) : ((s.moved i x).slot i).store = x.store := by
  rw [State.moved_slot]

@[simp] theorem State.moved_policy (s : State) (i : SlotId) (x : Slot) : ((s.moved i x).slot i).policy = x.policy := by
  rw [State.moved_slot]

/-- A slot set after a move: only the monitor's marks remain of the move. -/
theorem State.moved_setSlot (s : State) (i : SlotId) (x y : Slot) :
    (s.moved i x).setSlot i y = { s.setSlot i y with monitor := (s.moved i x).monitor } := by
  show ({ (s.setSlot i _).setSlot i y with monitor := (s.moved i x).monitor } : State) = _
  rw [State.setSlot_setSlot]

/-- The PWREN level and the commanded blink read the pin unit, the state and the power-cut mark only. -/
theorem Slot.pwren_congr {a b : Slot} (h₁ : a.pins = b.pins) (h₂ : a.ctl.state = b.ctl.state)
    (h₃ : a.ctl.powerCut = b.ctl.powerCut) : a.pwren = b.pwren := by
  simp only [Slot.pwren, Slot.drive, h₁, h₂, h₃]

/-- Two changes of slot `i` at one instant, the second leaving its PWREN level as it is, are one. -/
theorem State.modSlot_moved (s : State) (i : SlotId) (x y : Slot) (f : Slot → Slot) (hp : y.pwren = x.pwren)
    (hf : f ((s.moved i x).slot i) = (s.moved i y).slot i) : (s.moved i x).modSlot i f = s.moved i y := by
  have hm : (s.moved i x).monitor = (s.moved i y).monitor := by simp only [State.moved, hp]
  rw [State.modSlot, State.moved_setSlot, hf, hm, State.moved_slot]
  rfl

/-- An entry to a state with its STATE report, in one record (R197). -/
theorem State.reportState_moved (s : State) (i : SlotId) (x : Slot) (r : Option Reason) (v : Option Nat)
    (hx : x.ctl.lastReported = (s.slot i).ctl.lastReported) :
    (s.moved i x).reportState i r v =
      (s.moved i { x with ctl.lastReported := x.ctl.state }).reporting (s.stateNote i x.ctl.state r v) := by
  have hn : (s.moved i x).stateNote i ((s.moved i x).slot i).ctl.state r v = s.stateNote i x.ctl.state r v := by
    unfold State.stateNote
    rw [State.moved_lastReported, State.moved_state, hx]
    rfl
  have hp : ({ x with ctl.lastReported := x.ctl.state } : Slot).pwren = x.pwren := rfl
  have hb : ({ x with ctl.lastReported := x.ctl.state } : Slot).blinks = x.blinks := Slot.blinks_congr rfl rfl rfl rfl
  rw [State.reportState_eq, hn, s.modSlot_moved i x { x with ctl.lastReported := x.ctl.state } _ hp ?_]
  · rfl
  · rw [State.moved_slot, State.moved_slot, hp, hb]
    dsimp only
    split <;> rfl

/-- The STATE report of a slot entered by `drive`. -/
theorem State.reportState_drive (s : State) (i : SlotId) (f : Slot → Slot) (r : Option Reason) (v : Option Nat)
    (hf : (f (s.slot i)).ctl.lastReported = (s.slot i).ctl.lastReported) :
    (s.drive i f).reportState i r v =
      (s.moved i { f (s.slot i) with ctl.lastReported := (f (s.slot i)).ctl.state }).reporting
        (s.stateNote i (f (s.slot i)).ctl.state r v) := by
  rw [State.drive_eq_moved, State.reportState_moved _ _ _ _ _ hf]

/-- R93: a discharge check does nothing before the min-off time has elapsed. -/
theorem State.dischargeCheck_early {s : State} {i : SlotId} (h : (s.slot i).ctl.minOffElapsed = false) :
    s.dischargeCheck i = s := by
  simp [State.dischargeCheck, Slot.discharged, h]

end Sys2Proof.Machine
end

