-- ==== Sys2Proof/Laws/Entries.lean ====
section
/-! SUPPORT. Each entry to a state, and what leads to it, as the closed form of Safety.lean. -/

namespace Sys2Proof.Machine

theorem Slot.blinks_of_ctl {a : Slot} {c d : Controller} (h₁ : c.state = d.state) (h₂ : c.powerCut = d.powerCut) :
    ({ a with ctl := c } : Slot).blinks = ({ a with ctl := d } : Slot).blinks := Slot.blinks_congr rfl rfl h₁ h₂

/-- R101. -/
theorem State.enterResetting_eq (s : State) (i : SlotId) : s.enterResetting i = s.goesResetting i (s.slot i).ctl := by
  unfold State.enterResetting
  simp only [Slot.moveTo_eq, State.drive_eq_moved]
  rfl

/-- R99. -/
theorem State.enterRamping_eq (s : State) (p : Place) :
    ({ s with arbiter.granted := s.arbiter.granted ++ [p] } : State).enterRamping p.slot = s.goesRamping p := by
  unfold State.enterRamping
  simp only [Slot.moveTo_eq, State.drive_eq_moved]
  rfl

/-- R106. -/
theorem State.enterOff_eq (s : State) (i : SlotId) : s.enterOff i = s.goesOff i := by
  unfold State.enterOff
  simp only [Slot.moveTo_eq, State.drive_eq_moved]
  rw [State.reportState_moved]
  · simp only [State.moved_reason]
    rfl
  · rfl

/-- A slot changed after it was set beside the monitor. -/
theorem State.modSlot_setSlot_monitor (t : State) (i : SlotId) (x : Slot) (m : Monitor) (f : Slot → Slot) :
    ({ t.setSlot i x with monitor := m } : State).modSlot i f = { t.setSlot i (f x) with monitor := m } := by
  show ({ (t.setSlot i x).setSlot i (f ((t.setSlot i x).slot i)) with monitor := m } : State) = _
  rw [State.slot_setSlot_self, State.setSlot_setSlot]

/-- A slot after a power-off of itself (R197). -/
theorem State.slot_setPowerOff (t : State) (i : SlotId) :
    (t.setPowerOff i).slot i =
      { t.slot i with
        ctl := (t.slot i).ctl.powerOffAt t.now (t.slot i).policy.minOff, rails := (t.slot i).rails.after false true } := by
  rw [State.setPowerOff_eq]
  exact State.slot_setSlot_self _ _ _

/-- A power-off and a STATE report after it (R84, R197). -/
theorem State.reportState_setPowerOff (t : State) (i : SlotId) (r : Option Reason) (v : Option Nat) :
    (t.setPowerOff i).reportState i r v =
      State.reporting
        { t.setSlot i
            { t.slot i with
              ctl :=
                { (t.slot i).ctl.powerOffAt t.now (t.slot i).policy.minOff with lastReported := (t.slot i).ctl.state }
              rails := (t.slot i).rails.after false true } with
          monitor := t.monitor.after i false true } (t.stateNote i (t.slot i).ctl.state r v) := by
  have hs := State.slot_setPowerOff t i
  have hn : (t.setPowerOff i).stateNote i ((t.setPowerOff i).slot i).ctl.state r v =
      t.stateNote i (t.slot i).ctl.state r v := by
    unfold State.stateNote
    rw [hs, show (t.setPowerOff i).elapsed = t.elapsed by rw [State.setPowerOff_eq]; rfl]
    rfl
  rw [State.reportState_eq, hn, State.setPowerOff_eq, State.modSlot_setSlot_monitor]
  rfl

theorem Controller.powerOffAt_attempts (c : Controller) (now : BitVec 32) (minOff : Nat) :
    (c.powerOffAt now minOff).attempts = c.attempts := rfl

/-- R84. -/
theorem State.enterQuarantined_eq (s : State) (i : SlotId) (r : Reason) :
    s.enterQuarantined i r = s.goesQuarantined i r := by
  unfold State.enterQuarantined
  simp only [Slot.moveTo_eq, State.drive_eq_moved]
  rw [State.absorbHeld_eq, State.reportState_setPowerOff, State.slot_setPowerOff]
  unfold State.goesQuarantined
  simp only [State.slot_with_arbiter, State.moved_state, State.moved_policy]
  unfold State.stateNote
  simp only [State.slot_with_arbiter, State.moved_lastReported, Controller.powerOffAt_attempts, State.moved_attempts]
  rfl

/-! ### A move after a change of the slot -/

/-- A move takes the slot as it is: one set before, with its outputs as they were, is replaced. -/
theorem State.setSlot_moved (s : State) (i : SlotId) (x y : Slot) (hp : x.pwren = (s.slot i).pwren)
    (hb : x.blinks = (s.slot i).blinks) : (s.setSlot i x).moved i y = s.moved i y := by
  unfold State.moved
  simp only [State.slot_setSlot_self, hp, hb]
  rw [State.setSlot_setSlot]
  rfl

/-- The same for a change of the controller that leaves state and power-cut mark. -/
theorem State.ctl_moved (s : State) (i : SlotId) (c : Controller) (y : Slot) (h₁ : c.state = (s.slot i).ctl.state)
    (h₂ : c.powerCut = (s.slot i).ctl.powerCut) : (s.setSlot i { s.slot i with ctl := c }).moved i y = s.moved i y :=
  s.setSlot_moved i _ y (Slot.pwren_congr rfl h₁ h₂) (Slot.blinks_congr rfl rfl h₁ h₂)

/-- An arrival takes the slot as it is set before it, its pins and controller as they were. -/
theorem State.setSlot_arrives (s : State) (i : SlotId) (x : Slot) (c : Controller) (v : Option Nat)
    (hp : x.pins = (s.slot i).pins) (hc : x.ctl = (s.slot i).ctl) :
    (s.setSlot i x).arrives i c v =
      (s.moved i { x with chan.gateOpen := c.state.isOpen, ctl := { c with lastReported := c.state } }).reporting
        (s.stateNote i c.state c.reason v) := by
  unfold State.arrives State.stateNote
  rw [State.slot_setSlot_self, hc, s.setSlot_moved i x _ (Slot.pwren_congr hp (by rw [hc]) (by rw [hc]))
    (Slot.blinks_congr (by rw [hp]) (by rw [hp]) (by rw [hc]) (by rw [hc]))]
  rfl

/-! ### The discharge check -/

/-- R109. -/
theorem State.enterEmpty_eq (s : State) (i : SlotId) : s.enterEmpty i = s.goesEmpty i := by
  unfold State.enterEmpty
  simp only [Slot.moveTo_eq]
  rw [State.reportState_drive]
  · unfold State.goesEmpty
    dsimp only
    rw [State.setSlot_arrives] <;> rfl
  · rfl

/-- R90: the BUDGET failure. -/
theorem State.budgetFailure_eq (s : State) (i : SlotId) : s.budgetFailure i = s.failsBudget i := by
  unfold State.budgetFailure State.failsBudget
  rw [State.enterQuarantined_eq, State.report_eq]
  rfl

/-- R97, R141: entry to POWER_WAIT and its request. -/
theorem State.enterPowerWait_eq (s : State) (i : SlotId) :
    s.enterPowerWait i = s.asksGrant i (s.slot i).ctl := by
  unfold State.enterPowerWait State.asksGrant
  simp only [Slot.moveTo_eq, State.drive_eq_moved, State.moved_policy]
  rw [State.budgetFailure_eq]
  rfl

/-- The same after a change of the controller that leaves state and power-cut mark. -/
theorem State.enterPowerWait_ctl {s : State} {i : SlotId} (c : Controller)
    (h₁ : c.state = (s.slot i).ctl.state) (h₂ : c.powerCut = (s.slot i).ctl.powerCut) :
    (s.setSlot i { s.slot i with ctl := c }).enterPowerWait i = s.asksGrant i c := by
  rw [State.enterPowerWait_eq]
  have hg : (s.setSlot i { s.slot i with ctl := c }).goesPowerWait i c = s.goesPowerWait i c := by
    unfold State.goesPowerWait
    rw [s.ctl_moved i c _ h₁ h₂, State.slot_setSlot_self]
  unfold State.asksGrant
  rw [State.slot_setSlot_self, hg]
  rfl

theorem Rails.fallen_eq (r : Rails) : r.fallen = r.down := by
  unfold Rails.fallen Rails.down
  cases r.v12 <;> cases r.v33 <;> simp [Bool.and_assoc, Bool.and_left_comm, Bool.and_comm]

/-- R93, R94: the discharge check of a slot in DISCHARGING. -/
theorem State.dischargeCheck_eq {s : State} {i : SlotId} (hs : (s.slot i).ctl.state = .discharging) :
    s.dischargeCheck i = if (s.slot i).rested = true then s.completesDischarge i else s := by
  unfold State.dischargeCheck Slot.discharged Slot.rested State.completesDischarge
  simp only [Rails.fallen_eq, hs, decide_true, Bool.true_and]
  split
  · cases ht : (s.slot i).ctl.target with
    | none => simp [State.enterOff_eq, State.enterEmpty_eq]
    | some x => cases x <;> simp [State.enterOff_eq, State.enterEmpty_eq, State.enterPowerWait_eq]
  · rfl

/-- In any other state there is no discharge check (R93). -/
theorem State.dischargeCheck_elsewhere {s : State} {i : SlotId} (hs : (s.slot i).ctl.state ≠ .discharging) :
    s.dischargeCheck i = s := by
  simp [State.dischargeCheck, hs]

/-- R92: entry to DISCHARGING after a change of the controller that leaves state and power-cut mark. -/
theorem State.enterDischarging_ctl {s : State} {i : SlotId} (c : Controller) (t : Target) (h₁ : c.state = (s.slot i).ctl.state)
    (h₂ : c.powerCut = (s.slot i).ctl.powerCut) :
    (s.setSlot i { s.slot i with ctl := c }).enterDischarging i t = s.discharges i c t := by
  have hd : (s.setSlot i { s.slot i with ctl := c }).drive i (fun sl =>
      { sl.moveTo .discharging with
        ctl.powerCut := false
        ctl.target := some t
        ctl.dischargeTimer :=
          some ((s.setSlot i { s.slot i with ctl := c }).afterMs sl.policy.dischargeTimeout) }) =
      s.goesDischarging i c t := by
    rw [State.drive_eq_moved, s.ctl_moved i c _ h₁ h₂, State.slot_setSlot_self]
    simp only [Slot.moveTo_eq]
    rfl
  unfold State.enterDischarging State.discharges
  rw [hd]
  have hst : (((s.goesDischarging i c t).absorbsHold i).slot i).ctl.state = .discharging := by
    rw [((s.goesDischarging i c t).absorbsHold_spares i).ctl]
    unfold State.goesDischarging
    rw [State.moved_state]
    rfl
  dsimp only
  rw [State.absorbHeld_eq, State.dischargeCheck_eq hst]

/-- R92: entry to DISCHARGING. -/
theorem State.enterDischarging_eq (s : State) (i : SlotId) (t : Target) :
    s.enterDischarging i t = s.discharges i (s.slot i).ctl t := by
  have h := s.enterDischarging_ctl (i := i) (s.slot i).ctl t rfl rfl
  rwa [show ({ s.slot i with ctl := (s.slot i).ctl } : Slot) = s.slot i from rfl, State.setSlot_slot] at h

/-- R83, R85: power away. -/
theorem State.powerAway_eq (s : State) (i : SlotId) (r : Reason) :
    s.powerAway i r = s.discharges i { (s.slot i).ctl with reason := some r } .off :=
  s.enterDischarging_ctl { (s.slot i).ctl with reason := some r } .off rfl rfl

/-! ### Attempts -/

/-- R88, R101: a WARM attempt. -/
theorem State.startWarm_eq (s : State) (i : SlotId) (o : Origin) :
    s.startAttempt i .warm o 0 =
      s.goesResetting i { (s.slot i).ctl with attempts := 1, resetKind := some .warm, origin := some o } := by
  unfold State.startAttempt
  simp only []
  rw [State.enterResetting_eq]
  unfold State.goesResetting
  rw [show s.modSlot i (fun sl => { sl with ctl.attempts := 0 + 1, ctl.resetKind := some .warm, ctl.origin := some o }) =
      s.setSlot i
        { s.slot i with
          ctl := { (s.slot i).ctl with attempts := 1, resetKind := some .warm, origin := some o } } from rfl,
    s.ctl_moved i { (s.slot i).ctl with attempts := 1, resetKind := some .warm, origin := some o } _ rfl rfl,
    State.slot_setSlot_self]
  rfl

/-- R88: a COLD attempt: at once to POWER_WAIT from OFF and EMPTY with min-off elapsed, else to DISCHARGING. -/
theorem State.startCold_eq (s : State) (i : SlotId) (o : Origin) :
    s.startAttempt i .cold o 0 =
      (let c := { (s.slot i).ctl with attempts := 1, resetKind := some .cold, origin := some o }
      if ((s.slot i).ctl.state = .off ∨ (s.slot i).ctl.state = .empty) ∧ (s.slot i).ctl.minOffElapsed = true then
        s.asksGrant i c
      else s.discharges i c .bringUp) := by
  have h₁ := s.enterPowerWait_ctl (i := i)
    { (s.slot i).ctl with attempts := 1, resetKind := some .cold, origin := some o } rfl rfl
  have h₂ := s.enterDischarging_ctl (i := i)
    { (s.slot i).ctl with attempts := 1, resetKind := some .cold, origin := some o } .bringUp rfl rfl
  unfold State.startAttempt
  simp only [Bool.and_eq_true, Bool.or_eq_true, decide_eq_true_eq]
  split
  · exact h₁
  · exact h₂

/-- R80 to R82, R88: the first attempt of a recovery from ISOLATED or QUARANTINED. -/
theorem State.startRecovery_eq {s : State} {i : SlotId} (named : ResetKind)
    (hs : (s.slot i).ctl.state ≠ .off ∧ (s.slot i).ctl.state ≠ .empty) :
    s.startAttempt i ((s.slot i).attemptKind named) .recovery 0 = s.recovers i named := by
  unfold State.recovers Slot.attemptKind
  cases hc : (s.slot i).ctl.powerCut <;> cases named <;>
    simp [State.startWarm_eq, State.startCold_eq, hs.1, hs.2] <;>
    (intro h; rw [hc] at h; cases h)

/-- R88, R108, R110: a bring-up from OFF or EMPTY. -/
theorem State.bringUp_eq {s : State} {i : SlotId} (r : Reason)
    (hs : (s.slot i).ctl.state = .off ∨ (s.slot i).ctl.state = .empty) :
    (s.modSlot i fun sl => { sl with ctl.reason := some r }).startAttempt i .cold .bringUp 0 = s.bringsUp i r := by
  have h₁ := s.enterPowerWait_ctl (i := i)
    { (s.slot i).ctl with
      reason := some r, attempts := 1, resetKind := some .cold, origin := some .bringUp } rfl rfl
  have h₂ := s.enterDischarging_ctl (i := i)
    { (s.slot i).ctl with
      reason := some r, attempts := 1, resetKind := some .cold, origin := some .bringUp } .bringUp rfl rfl
  unfold State.startAttempt State.bringsUp
  simp only [State.modSlot_modSlot, State.slot_modSlot_self, Bool.and_eq_true, Bool.or_eq_true, decide_eq_true_eq, hs,
    true_and]
  split
  · exact h₁
  · exact h₂

end Sys2Proof.Machine
end

