-- ==== Sys2Proof/Laws/Kept.lean ====
section
/-! SUPPORT. What every operation keeps: the command queue, a sound report queue, a sound scorer, and of every slot its soundness, its image's
and its ranges. One lemma per operation,
so that no proof about a command has to look inside the operations its meaning calls. -/

namespace Sys2Proof.Machine

/-- A slot goes from `a` to `b` and stays sound. -/
structure Slot.Evolves (a b : Slot) : Prop where
  sound : a.sound → b.sound
  image : a.store.sound → b.store.sound
  ranged : a.ranged → b.ranged

/-- The part goes from `s` to `t`: the command queue stands, and what was sound stays sound. -/
structure State.Evolves (s t : State) : Prop where
  pending : t.pending = s.pending
  reports : s.reports.sound → t.reports.sound
  scorer : s.scorer.sound → t.scorer.sound
  slots : ∀ i, (s.slot i).Evolves (t.slot i)

theorem Slot.Evolves.refl (a : Slot) : a.Evolves a := ⟨id, id, id⟩

theorem State.Evolves.refl (s : State) : s.Evolves s := ⟨rfl, id, id, fun _ => .refl _⟩

theorem State.Evolves.trans {s t u : State} (h : s.Evolves t) (k : t.Evolves u) : s.Evolves u :=
  ⟨k.pending.trans h.pending, k.reports ∘ h.reports, k.scorer ∘ h.scorer, fun i =>
    ⟨(k.slots i).sound ∘ (h.slots i).sound, (k.slots i).image ∘ (h.slots i).image,
      (k.slots i).ranged ∘ (h.slots i).ranged⟩⟩

/-- What was sound stays sound. -/
theorem State.Evolves.keepsSound {s t : State} (h : s.Evolves t) (k : s.Sound) : t.Sound :=
  ⟨h.reports k.1, h.scorer k.2.1, fun i =>
    ⟨(h.slots i).sound (k.2.2 i).1, (h.slots i).image (k.2.2 i).2.1, (h.slots i).ranged (k.2.2 i).2.2⟩⟩

/-- A slot whose gate, state, score, counters and image stand evolves; so do its ranges where policy, attempts, entries and outbound tags
stand. -/
theorem Slot.Evolves.same {a b : Slot} (h₁ : b.chan.gateOpen = a.chan.gateOpen) (h₂ : b.ctl.state = a.ctl.state)
    (h₃ : b.ctl.score = a.ctl.score) (h₄ : b.chan.dropped = a.chan.dropped) (h₅ : b.chan.absorbed = a.chan.absorbed)
    (h₆ : b.store.entries = a.store.entries) (h₇ : a.ranged → b.ranged) : a.Evolves b := by
  refine ⟨fun h => ?_, fun h => ?_, h₇⟩
  · simpa only [Slot.sound, h₁, h₂, h₃, h₄, h₅] using h
  · simpa only [ImageStore.sound, h₆] using h

/-! ### Shared operations -/

theorem State.evolves_setSlot (s : State) (i : SlotId) (x : Slot) (h : (s.slot i).Evolves x) : s.Evolves (s.setSlot i x) := by
  refine ⟨rfl, id, id, fun j => ?_⟩
  rw [State.slot_setSlot]
  split
  · subst j; exact h
  · exact .refl _

theorem State.evolves_modSlot (s : State) (i : SlotId) (f : Slot → Slot) (h : ∀ a : Slot, a.Evolves (f a)) :
    s.Evolves (s.modSlot i f) := s.evolves_setSlot i _ (h _)

/-- A change that leaves the slots, the report queue, the scorer's parameters and the command queue alone. -/
theorem State.Evolves.shared {s t : State} (h₁ : t.slots = s.slots) (h₂ : t.reports = s.reports)
    (h₃ : t.pending = s.pending) (h₄ : s.scorer.sound → t.scorer.sound) : s.Evolves t :=
  ⟨h₃, by rw [h₂]; exact id, h₄, fun i => by simp only [State.slot, h₁]; exact .refl _⟩

theorem State.evolves_moved (s : State) (i : SlotId) (new : Slot) (h : (s.slot i).Evolves new) : s.Evolves (s.moved i new) := by
  refine (s.evolves_setSlot i { new with
      ctl := if (s.slot i).pwren && !new.pwren then new.ctl.powerOffAt s.now new.policy.minOff else new.ctl
      rails := new.rails.after ((s.slot i).pwren != new.pwren) ((s.slot i).pwren && !new.pwren)
      pins := new.pins.after (s.slot i).blinks new.blinks s.now } ?_).trans (.shared rfl rfl rfl id)
  refine ⟨fun k => ?_, fun k => h.image k, fun k => ?_⟩
  · have k' := h.sound k
    simp only [Slot.sound] at k' ⊢
    split <;> exact k'
  · have k' := h.ranged k
    simp only [Slot.ranged] at k' ⊢
    split <;> exact k'

theorem State.evolves_drive (s : State) (i : SlotId) (f : Slot → Slot) (h : ∀ a : Slot, a.Evolves (f a)) :
    s.Evolves (s.drive i f) := by
  rw [State.drive_eq_moved]
  exact s.evolves_moved i _ (h _)

theorem State.evolves_offerReport (s : State) (r : Report) : s.Evolves (s.offerReport r) := by
  rw [State.offerReport_eq]
  exact ⟨rfl, fun h => ReportQueue.sound_offered h _ _, id, fun _ => .refl _⟩

theorem State.evolves_report (s : State) (k : ReportKind) (i : SlotId) (r : Option Reason) (v : Option Nat) :
    s.Evolves (s.report k i r v) := s.evolves_offerReport _

theorem State.evolves_reportRestored (s : State) (i : SlotId) (n : Nat) (b : Bool) :
    s.Evolves (s.reportRestored i n b) := s.evolves_offerReport _

theorem State.evolves_reportState (s : State) (i : SlotId) (r : Option Reason) (v : Option Nat) :
    s.Evolves (s.reportState i r v) :=
  (s.evolves_modSlot i (fun sl => { sl with ctl.lastReported := sl.ctl.state }) fun _ =>
    .same rfl rfl rfl rfl rfl rfl id).trans (State.evolves_offerReport _ _)

theorem State.evolves_when (s : State) (c : Bool) (f : State → State) (h : s.Evolves (f s)) : s.Evolves (s.when c f) := by
  unfold State.when
  split
  · exact h
  · exact .refl _

theorem State.evolves_running (s : State) (f : State → State) (h : s.Evolves (f s)) : s.Evolves (s.running f) := by
  unfold State.running
  split
  · exact .refl _
  · exact h

theorem State.evolves_setPowerOff (s : State) (i : SlotId) : s.Evolves (s.setPowerOff i) := by
  rw [State.setPowerOff_eq]
  exact (s.evolves_setSlot i { s.slot i with
      ctl := (s.slot i).ctl.powerOffAt s.now (s.slot i).policy.minOff
      rails := (s.slot i).rails.after false true } (.same rfl rfl rfl rfl rfl rfl id)).trans (.shared rfl rfl rfl id)

theorem State.evolves_toHost (s : State) (i : SlotId) (o : HostOut) : s.Evolves (s.toHost i o) :=
  s.evolves_modSlot i _ fun _ => .same rfl rfl rfl rfl rfl rfl id

theorem State.evolves_toCard (s : State) (i : SlotId) (o : CardOut) : s.Evolves (s.toCard i o) :=
  s.evolves_modSlot i _ fun _ => .same rfl rfl rfl rfl rfl rfl id

theorem State.evolves_countAbsorbed (s : State) (i : SlotId) : s.Evolves (s.countAbsorbed i) :=
  s.evolves_modSlot i _ fun _ => ⟨fun ⟨h₁, h₂, h₃, _⟩ => ⟨h₁, h₂, h₃, Nat.min_le_right _ _⟩, id, id⟩

theorem State.evolves_countDropped (s : State) (i : SlotId) : s.Evolves (s.countDropped i) :=
  s.evolves_modSlot i _ fun _ => ⟨fun ⟨h₁, h₂, _, h₄⟩ => ⟨h₁, h₂, Nat.min_le_right _ _, h₄⟩, id, id⟩

/-- A slot that moves to a state, its gate as that state has it (R5), with score, counters and image as they were, evolves. -/
theorem Slot.Evolves.move {a b : Slot} (st : SlotState) (h₁ : b.chan.gateOpen = st.isOpen) (h₂ : b.ctl.state = st)
    (h₃ : b.ctl.score = a.ctl.score) (h₄ : b.chan.dropped = a.chan.dropped) (h₅ : b.chan.absorbed = a.chan.absorbed)
    (h₆ : b.store.entries = a.store.entries) (h₇ : a.ranged → b.ranged) : a.Evolves b := by
  refine ⟨fun h => ?_, fun h => ?_, h₇⟩
  · simp only [Slot.sound, h₁, h₂, h₃, h₄, h₅, true_and] at h ⊢
    exact h.2
  · simpa only [ImageStore.sound, h₆] using h

/-! ### The image -/

/-- An image without entries is sound. -/
theorem ImageStore.sound_of_empty {st : ImageStore} (h : st.entries = []) : st.sound := by
  simp [ImageStore.sound, h]

theorem ImageStore.sound_mergeAt {st : ImageStore} (h : st.sound) (o : Offset) (v : Dword) (m : ByteMask) :
    (st.mergeAt o v m).sound := by
  have hm : (st.mergeAt o v m).entries.map (fun e => e.offset) = st.entries.map fun e => e.offset := by
    simp only [ImageStore.mergeAt, List.map_map]
    apply List.map_congr_left
    intro e _
    simp only [Function.comp]
    split <;> rfl
  refine ⟨?_, hm ▸ h.2.1, fun e he => ?_⟩
  · simpa [ImageStore.mergeAt] using h.1
  · have : e.offset ∈ st.entries.map fun e => e.offset := hm ▸ List.mem_map_of_mem he
    obtain ⟨e', he', hh⟩ := List.mem_map.1 this
    exact hh ▸ h.2.2 e' he'

theorem ImageStore.sound_append {st : ImageStore} (h : st.sound) {o : Offset} (v : Dword) (m : ByteMask) (h0 : o ≠ 0)
    (hn : st.holds o = false) (hr : st.hasRoom = true) : (st.append o v m).sound := by
  have hr' : st.entries.length < 48 := of_decide_eq_true hr
  simp only [ImageStore.holds, List.any_eq_false, beq_iff_eq] at hn
  refine ⟨by simp [ImageStore.append]; omega, ?_, fun e he => ?_⟩
  · simp only [ImageStore.append, List.map_append, List.map_cons, List.map_nil]
    rw [List.nodup_append]
    refine ⟨h.2.1, by simp, ?_⟩
    intro x hx y hy
    obtain ⟨e, he, rfl⟩ := List.mem_map.1 hx
    simp only [List.mem_singleton] at hy
    subst hy
    exact hn e he
  · simp only [ImageStore.append, List.mem_append, List.mem_singleton] at he
    rcases he with he | rfl
    · exact h.2.2 e he
    · exact h0

theorem ImageStore.sound_record {st : ImageStore} (h : st.sound) (f : List Span) (o : Offset) (v : Dword) (m : ByteMask) :
    (st.record f o v m).1.sound := by
  unfold ImageStore.record
  split
  · exact h
  · split
    · exact h
    · split
      · exact ImageStore.sound_mergeAt h o v m
      · split
        · exact ImageStore.sound_append h v m ‹_› (by simpa using ‹¬st.holds o = true›) ‹_›
        · exact h

/-- A slot whose image alone changed, soundly. -/
theorem Slot.Evolves.image_only (a : Slot) (st : ImageStore) (h : a.store.sound → st.sound) :
    a.Evolves { a with store := st } := ⟨id, h, id⟩

/-! ### The ranges of a slot -/

/-- R21, R22: with fewer entries than the quota, and none with the tag, one more keeps the list in range. -/
theorem Slot.ranged_entry {a : Slot} (e : Entry) (hn : a.pendingTag e.tag = false) (hl : a.entries.length < a.policy.quota)
    (h : a.ranged) : ({ a with entries := a.entries ++ [e] } : Slot).ranged := by
  obtain ⟨hp, ha, ⟨hd, _⟩, ho⟩ := h
  have hq : a.policy.quota ≤ 64 := hp.2.2.1.2
  refine ⟨hp, ha, ⟨?_, by simp only [List.length_append, List.length_singleton]; omega⟩, ho⟩
  simp only [List.map_append, List.map_cons, List.map_nil]
  rw [List.nodup_append]
  refine ⟨hd, by simp, fun x hx y hy => ?_⟩
  obtain ⟨e', he', rfl⟩ := List.mem_map.1 hx
  simp only [List.mem_singleton] at hy
  subst hy
  simp only [Slot.pendingTag, List.any_eq_false, beq_iff_eq] at hn
  exact hn e' he'

/-- Entries that leave the list leave it in range. -/
theorem Slot.ranged_fewer {a : Slot} {l : List Entry} (hs : l.Sublist a.entries) (h : a.ranged) :
    ({ a with entries := l } : Slot).ranged :=
  ⟨h.1, h.2.1, ⟨(hs.map _).nodup h.2.2.1.1, hs.length_le.trans h.2.2.1.2⟩, h.2.2.2⟩

/-- R73: with fewer than 32 tags held, and this one not among them, one more keeps the set in range. -/
theorem Slot.ranged_join {a : Slot} (tag : Tag) (hn : a.outbound.lookup tag = none) (hl : a.outbound.tags.length < 32)
    (h : a.ranged) : ({ a with outbound := a.outbound.join tag } : Slot).ranged := by
  obtain ⟨hp, ha, he, ⟨hd, _⟩⟩ := h
  refine ⟨hp, ha, he, ?_, by simp only [Outbound.join, List.length_append, List.length_singleton]; omega⟩
  simp only [Outbound.join, List.map_append, List.map_cons, List.map_nil]
  rw [List.nodup_append]
  refine ⟨hd, by simp, fun x hx y hy => ?_⟩
  obtain ⟨t, ht, rfl⟩ := List.mem_map.1 hx
  simp only [List.mem_singleton] at hy
  subst hy
  simp only [Outbound.lookup, List.find?_eq_none, beq_iff_eq] at hn
  exact hn t ht

/-- Tags that leave the set leave it in range, whatever becomes of the ghost deadline. -/
theorem Slot.ranged_fewerTags {a : Slot} {o : Outbound} (hs : o.tags.Sublist a.outbound.tags) (h : a.ranged) :
    ({ a with outbound := o } : Slot).ranged :=
  ⟨h.1, h.2.1, h.2.2.1, (hs.map _).nodup h.2.2.2.1, hs.length_le.trans h.2.2.2.2⟩

/-- R87: a policy record inside its ranges, with the attempt count within its max attempts, keeps the slot in range. -/
theorem Slot.ranged_policy {a : Slot} {p : Policy} (hp : p.sound) (ha : a.ctl.attempts ≤ p.maxAttempts) (h : a.ranged) :
    ({ a with policy := p } : Slot).ranged := ⟨hp, ha, h.2.2⟩

end Sys2Proof.Machine
end

