-- ==== Sys2Proof/Laws/KeptSlots.lean ====
section
/-! SUPPORT. The operations of chapters 1, 2, 4 and 5: each keeps the command queue and what is sound. -/

namespace Sys2Proof.Machine

/-! ### The slot channel -/

theorem State.evolves_refuseTag (s : State) (i : SlotId) (tag : Tag) : s.Evolves (s.refuseTag i tag) :=
  (s.evolves_toHost i _).trans (State.evolves_report _ _ _ _ _)

theorem State.evolves_absorb (s : State) (i : SlotId) (r : Request) : s.Evolves (s.absorb i r) := by
  unfold State.absorb
  dsimp only
  split
  · exact s.evolves_refuseTag i _
  · split
    · exact s.evolves_countDropped i
    · exact s.evolves_countDropped i
    · exact (s.evolves_toHost i _).trans (State.evolves_countAbsorbed _ _)
    · exact ((s.evolves_setSlot i _ (.image_only _ _ fun h => ImageStore.sound_record h _ _ _ _)).trans
        (State.evolves_toHost _ _ _)).trans (State.evolves_countAbsorbed _ _)
    · exact (s.evolves_toHost i _).trans (State.evolves_countAbsorbed _ _)

theorem State.evolves_leavePoolWait (s : State) (i : SlotId) : s.Evolves (s.leavePoolWait i) := .shared rfl rfl rfl id

theorem State.evolves_joinPoolWait (s : State) (i : SlotId) : s.Evolves (s.joinPoolWait i) := by
  unfold State.joinPoolWait
  split
  · exact .refl _
  · exact .shared rfl rfl rfl id

/-- R23: what admission has found of a request it takes. -/
theorem State.admission_admitted {s : State} {i : SlotId} {r : Request} (h : s.admission i r = .admitted) :
    (s.slot i).pendingTag r.tag = false ∧ (s.slot i).entries.length < (s.slot i).policy.quota := by
  unfold State.admission at h
  dsimp only at h
  split at h
  · cases h
  · split at h
    · cases h
    · exact ⟨Bool.eq_false_iff.2 ‹_›, Nat.lt_of_not_le ‹_›⟩

theorem State.evolves_admit (s : State) (i : SlotId) (r : Request) (a d : Micros) (hn : (s.slot i).pendingTag r.tag = false)
    (hl : (s.slot i).entries.length < (s.slot i).policy.quota) : s.Evolves (s.admitRequest i r a d) :=
  .trans (by exact s.evolves_setSlot i _ (.same rfl rfl rfl rfl rfl rfl (Slot.ranged_entry (r.entry a d) hn hl)))
    (State.evolves_toCard _ _ _)

theorem State.evolves_holdRequest (s : State) (i : SlotId) (r : Request) : s.Evolves (s.holdRequest i r) :=
  s.evolves_setSlot i _ (.same rfl rfl rfl rfl rfl rfl id)

theorem State.evolves_emptyHold (s : State) (i : SlotId) : s.Evolves (s.emptyHold i) :=
  .trans (by exact s.evolves_setSlot i _ (.same rfl rfl rfl rfl rfl rfl id)) (State.evolves_leavePoolWait _ _)

theorem State.evolves_takeOpen (s : State) (i : SlotId) (r : Request) : s.Evolves (s.takeOpen i r) := by
  unfold State.takeOpen
  split
  · exact s.evolves_toCard i _
  · split
    · exact s.evolves_refuseTag i _
    · exact s.evolves_holdRequest i _
    · exact (s.evolves_holdRequest i _).trans (State.evolves_joinPoolWait _ _)
    · have h := State.admission_admitted ‹_›
      exact s.evolves_admit i _ _ _ h.1 h.2

theorem State.evolves_hostArrive (s : State) (i : SlotId) (r : Request) : s.Evolves (s.hostArrive i r) := by
  unfold State.hostArrive
  dsimp only
  split
  · split
    · exact s.evolves_takeOpen i r
    · exact s.evolves_holdRequest i r
  · split
    · exact s.evolves_holdRequest i r
    · exact s.evolves_absorb i r

theorem State.evolves_hostRequest (s : State) (i : SlotId) (r : Request) : s.Evolves (s.hostRequest i r) := by
  unfold State.hostRequest
  dsimp only
  split
  · exact .refl _
  · split
    · exact s.evolves_setSlot i _ (.same rfl rfl rfl rfl rfl rfl id)
    · exact s.evolves_hostArrive i r

theorem State.evolves_takeHostWaiting (s : State) (i : SlotId) : s.Evolves (s.takeHostWaiting i) := by
  unfold State.takeHostWaiting
  split
  · exact .refl _
  · exact .trans (by exact s.evolves_setSlot i _ (.same rfl rfl rfl rfl rfl rfl id)) (State.evolves_hostArrive _ _ _)

theorem State.slot_emptyHold (s : State) (i : SlotId) :
    (s.emptyHold i).slot i = { s.slot i with chan.hold := none } := State.slot_setSlot_self _ _ _

theorem State.evolves_offerHeld (s : State) (i : SlotId) : s.Evolves (s.offerHeld i) := by
  unfold State.offerHeld
  split
  · exact .refl _
  · split
    · split
      · exact (s.evolves_emptyHold i).trans (State.evolves_toCard _ _ _)
      · split
        · exact (s.evolves_emptyHold i).trans (State.evolves_refuseTag _ _ _)
        · exact s.evolves_leavePoolWait i
        · exact s.evolves_joinPoolWait i
        · have h := State.admission_admitted ‹_›
          refine (s.evolves_emptyHold i).trans (State.evolves_admit _ _ _ _ _ ?_ ?_)
          · rw [State.slot_emptyHold]; exact h.1
          · rw [State.slot_emptyHold]; exact h.2
    · exact .refl _

theorem State.evolves_offerAlong (l : List SlotId) : ∀ s : State, s.Evolves (State.offerAlong l s) := by
  induction l with
  | nil => exact fun s => .refl _
  | cons j rest ih =>
    intro s
    unfold State.offerAlong
    dsimp only
    split
    · split
      · exact s.evolves_offerHeld j
      · exact (s.evolves_offerHeld j).trans (ih _)
    · exact ih s

theorem State.evolves_poolOffer (s : State) : s.Evolves s.poolOffer := State.evolves_offerAlong _ s

theorem State.evolves_quotaOffer (s : State) (i : SlotId) : s.Evolves (s.quotaOffer i) := by
  unfold State.quotaOffer
  split
  · exact .refl _
  · exact s.evolves_offerHeld i

theorem State.evolves_freeEntry (s : State) (i : SlotId) (tag : Tag) : s.Evolves (s.freeEntry i tag) :=
  .trans (.trans (by exact s.evolves_setSlot i _ (.same rfl rfl rfl rfl rfl rfl
      (Slot.ranged_fewer List.eraseP_sublist))) (State.evolves_poolOffer _))
    (State.evolves_quotaOffer _ _)

theorem State.evolves_absorbHeld (s : State) (i : SlotId) : s.Evolves (s.absorbHeld i) := by
  unfold State.absorbHeld
  split
  · exact .refl _
  · exact (s.evolves_emptyHold i).trans (State.evolves_absorb _ _ _)

theorem State.evolves_blockCard (s : State) (i : SlotId) (r : Request) : s.Evolves (s.blockCard i r) := by
  unfold State.blockCard
  split
  · exact .refl _
  · exact s.evolves_toCard i _

theorem State.evolves_blockHeld (s : State) (i : SlotId) : s.Evolves (s.blockHeld i) := by
  unfold State.blockHeld
  split
  · exact .refl _
  · exact .trans (by exact s.evolves_setSlot i _ (.same rfl rfl rfl rfl rfl rfl id)) (State.evolves_blockCard _ _ _)

/-! ### Entries to states -/

theorem State.evolves_enterQuarantined (s : State) (i : SlotId) (r : Reason) : s.Evolves (s.enterQuarantined i r) := by
  unfold State.enterQuarantined
  dsimp only
  refine .trans ?_ (State.evolves_absorbHeld _ _)
  refine .trans ?_ (State.evolves_reportState _ _ _ _)
  refine .trans ?_ (State.evolves_setPowerOff _ _)
  exact (s.evolves_drive i (fun sl => { sl.moveTo .quarantined with
      ctl.reason := some r, ctl.powerCut := false, ctl.resetKind := none, ctl.origin := none }) fun _ => .move .quarantined rfl rfl rfl rfl rfl rfl id).trans (.shared rfl rfl rfl id)

theorem State.evolves_budgetFailure (s : State) (i : SlotId) : s.Evolves (s.budgetFailure i) :=
  (s.evolves_report _ _ _ _).trans (State.evolves_enterQuarantined _ _ _)

theorem State.evolves_enterRamping (s : State) (i : SlotId) : s.Evolves (s.enterRamping i) :=
  s.evolves_drive i _ fun _ => .move .ramping rfl rfl rfl rfl rfl rfl id

theorem State.evolves_grantLoop (l : List Place) : ∀ s : State, s.Evolves (State.grantLoop l s) := by
  induction l with
  | nil => exact fun s => .refl _
  | cons p rest ih =>
    intro s
    unfold State.grantLoop
    split
    · exact .trans (.trans (by exact .shared rfl rfl rfl id) (State.evolves_budgetFailure _ _)) (ih _)
    · split
      · exact .trans (.trans (by exact .shared rfl rfl rfl id) (State.evolves_enterRamping _ _)) (ih _)
      · exact .refl _

theorem State.evolves_grantCheck (s : State) : s.Evolves s.grantCheck := State.evolves_grantLoop _ s

theorem State.evolves_release (s : State) (i : SlotId) : s.Evolves (s.release i) :=
  .trans (by exact .shared rfl rfl rfl id) (State.evolves_grantCheck _)

theorem State.evolves_depart (s : State) (i : SlotId) : s.Evolves (s.depart i) := by
  unfold State.depart
  dsimp only
  split
  · exact .trans (by exact .shared rfl rfl rfl id) (State.evolves_grantCheck _)
  · exact .shared rfl rfl rfl id

theorem State.evolves_enterPowerWait (s : State) (i : SlotId) : s.Evolves (s.enterPowerWait i) := by
  unfold State.enterPowerWait
  dsimp only
  have h := s.evolves_drive i (fun sl => sl.moveTo .powerWait) fun _ => .move .powerWait rfl rfl rfl rfl rfl rfl id
  split
  · exact h.trans (State.evolves_budgetFailure _ _)
  · exact h.trans (.trans (by exact .shared rfl rfl rfl id) (State.evolves_grantCheck _))

theorem State.evolves_enterOff (s : State) (i : SlotId) : s.Evolves (s.enterOff i) := by
  unfold State.enterOff
  have hr : ∀ a : Slot, a.ranged → ({ a with ctl.attempts := 0 } : Slot).ranged := fun _ h => ⟨h.1, Nat.zero_le _, h.2.2⟩
  exact .trans (by exact s.evolves_drive i _ fun _ => .move .off rfl rfl rfl rfl rfl rfl (hr _)) (State.evolves_reportState _ _ _ _)

theorem State.evolves_enterEmpty (s : State) (i : SlotId) : s.Evolves (s.enterEmpty i) := by
  unfold State.enterEmpty
  exact .trans (by exact s.evolves_drive i _ fun a =>
    ⟨fun ⟨_, _, h₃, h₄⟩ => ⟨rfl, Nat.zero_le _, h₃, h₄⟩, fun _ => ImageStore.sound_of_empty rfl,
      fun h => ⟨h.1, Nat.zero_le _, h.2.2.1, List.nodup_nil, Nat.zero_le _⟩⟩)
      (State.evolves_reportState _ _ _ _)

theorem State.evolves_dischargeCheck (s : State) (i : SlotId) : s.Evolves (s.dischargeCheck i) := by
  unfold State.dischargeCheck
  dsimp only
  split
  · split
    · exact s.evolves_enterPowerWait i
    · split
      · exact s.evolves_enterOff i
      · exact s.evolves_enterEmpty i
  · exact .refl _

theorem State.evolves_enterDischarging (s : State) (i : SlotId) (t : Target) : s.Evolves (s.enterDischarging i t) := by
  unfold State.enterDischarging
  exact .trans (.trans (by exact s.evolves_drive i _ fun _ => .move .discharging rfl rfl rfl rfl rfl rfl id)
    (State.evolves_absorbHeld _ _)) (State.evolves_dischargeCheck _ _)

theorem State.evolves_enterResetting (s : State) (i : SlotId) : s.Evolves (s.enterResetting i) :=
  s.evolves_drive i _ fun _ => .move .resetting rfl rfl rfl rfl rfl rfl id

theorem State.evolves_enterTraining (s : State) (i : SlotId) : s.Evolves (s.enterTraining i) :=
  s.evolves_drive i _ fun _ => .move .training rfl rfl rfl rfl rfl rfl id

theorem State.evolves_startAttempt (s : State) (i : SlotId) (k : ResetKind) (o : Origin) :
    s.Evolves (s.startAttempt i k o 0) := by
  unfold State.startAttempt
  dsimp only
  have h := s.evolves_modSlot i
    (fun sl => { sl with ctl.attempts := 0 + 1, ctl.resetKind := some k, ctl.origin := some o }) fun _ =>
      .same rfl rfl rfl rfl rfl rfl fun h => ⟨h.1, h.1.2.1.1, h.2.2⟩
  cases k
  · exact h.trans (State.evolves_enterResetting _ _)
  · dsimp only
    split
    · exact h.trans (State.evolves_enterPowerWait _ _)
    · exact h.trans (State.evolves_enterDischarging _ _ _)

theorem State.evolves_firstAttempt (s : State) (i : SlotId) : s.Evolves (s.firstAttempt i) := s.evolves_startAttempt _ _ _

theorem State.evolves_enterIsolated (s : State) (i : SlotId) : s.Evolves (s.enterIsolated i) := by
  unfold State.enterIsolated
  dsimp only
  have h := (s.evolves_drive i (fun sl => { sl.moveTo .isolated with ctl.isoPolicy := some sl.policy.policy }) fun _ => .move .isolated rfl rfl rfl rfl rfl rfl id).trans (State.evolves_reportState _ i
      ((s.drive i fun sl => { sl.moveTo .isolated with ctl.isoPolicy := some sl.policy.policy }).slot i).ctl.reason none)
  split
  · exact h.trans (State.evolves_firstAttempt _ _)
  · exact h.trans (State.evolves_modSlot _ _ _ fun _ => .same rfl rfl rfl rfl rfl rfl id)
  · exact h

theorem State.evolves_enterOnline (s : State) (i : SlotId) : s.Evolves (s.enterOnline i) := by
  unfold State.enterOnline
  dsimp only
  have h := (s.evolves_drive i (fun sl => sl.moveTo .online) fun _ => .move .online rfl rfl rfl rfl rfl rfl id).trans
    (State.evolves_offerHeld _ i)
  generalize State.offerHeld _ _ = t at h ⊢
  have h' := (h.trans (t.evolves_modSlot i (fun sl =>
    { sl with
      ctl.score := 0, ctl.attempts := 0, ctl.resetKind := none, ctl.origin := none
      outbound.deadline := if sl.outbound.hasGhost then some (t.after sl.policy.slotTimeout) else sl.outbound.deadline })
    fun _ => ⟨fun ⟨h₁, _, h₃⟩ => ⟨h₁, Nat.zero_le _, h₃⟩, id, fun h => ⟨h.1, Nat.zero_le _, h.2.2⟩⟩)).trans
    (State.evolves_reportState _ i (t.slot i).ctl.reason (some (t.slot i).ctl.attempts))
  split
  · exact h'
  · exact (h'.trans (State.evolves_reportRestored _ _ _ _)).trans
      (State.evolves_modSlot _ _ _ fun _ => .same rfl rfl rfl rfl rfl rfl id)

/-! ### The replay -/

theorem State.evolves_replayDone (s : State) (i : SlotId) : s.Evolves (s.replayDone i) :=
  .trans (by exact s.evolves_setSlot i _ (.same rfl rfl rfl rfl rfl rfl id)) (State.evolves_enterOnline _ _)

theorem State.evolves_issueWrite (s : State) (i : SlotId) (e : ImgEntry) : s.Evolves (s.issueWrite i e) :=
  .trans (by exact s.evolves_setSlot i _ (.same rfl rfl rfl rfl rfl rfl id)) (State.evolves_toCard _ _ _)

theorem State.evolves_replayNext (s : State) (i : SlotId) : s.Evolves (s.replayNext i) := by
  unfold State.replayNext
  dsimp only
  split
  · exact s.evolves_issueWrite i _
  · exact s.evolves_replayDone i

theorem State.evolves_enterRestoring (s : State) (i : SlotId) : s.Evolves (s.enterRestoring i) :=
  .trans (by exact s.evolves_drive i _ fun _ => .move .restoring rfl rfl rfl rfl rfl rfl id) (State.evolves_replayNext _ _)

theorem State.evolves_replayCleared (s : State) (i : SlotId) : s.Evolves (s.replayCleared i) := by
  unfold State.replayCleared
  dsimp only
  split
  · exact s.evolves_replayDone i
  · exact .refl _

/-! ### Failures -/

theorem State.evolves_leaveStage (s : State) (i : SlotId) : s.Evolves (s.leaveStage i) := by
  unfold State.leaveStage
  split
  · exact s.evolves_release i
  · exact s.evolves_setSlot i _ (.same rfl rfl rfl rfl rfl rfl id)
  · exact .refl _

theorem State.evolves_attemptFailure (s : State) (i : SlotId) (r : Reason) : s.Evolves (s.attemptFailure i r) := by
  unfold State.attemptFailure
  dsimp only
  have h := (s.evolves_leaveStage i).trans (State.evolves_modSlot _ i (fun sl => { sl with ctl.reason := some r })
    fun _ => .same rfl rfl rfl rfl rfl rfl id)
  generalize State.modSlot (s.leaveStage i) _ _ = t at h ⊢
  have h' := h.trans (t.evolves_report .attempt i (some r) (some (t.slot i).ctl.attempts))
  have hu : (t.report .attempt i (some r) (some (t.slot i).ctl.attempts)).slot i = t.slot i := State.slot_report _ _ _ _ _ _
  generalize State.report t .attempt i (some r) (some (t.slot i).ctl.attempts) = u at h' hu ⊢
  split
  · have ha : (u.slot i).ctl.attempts < (u.slot i).policy.maxAttempts := by
      rw [show (u.slot i).ctl.attempts = (t.slot i).ctl.attempts by rw [hu]]; assumption
    have hr : (u.slot i).ranged → ({ u.slot i with ctl.attempts := (u.slot i).ctl.attempts + 1 } : Slot).ranged :=
      fun h => ⟨h.1, ha, h.2.2⟩
    exact .trans (.trans h' (by exact State.evolves_setSlot _ _ _ (.same rfl rfl rfl rfl rfl rfl hr)))
      (State.evolves_enterDischarging _ _ _)
  · exact h'.trans (u.evolves_enterQuarantined _ _)

theorem State.evolves_abandon (s : State) (i : SlotId) (r : Reason) : s.Evolves (s.abandon i r) := by
  unfold State.abandon
  dsimp only
  split
  · exact s.evolves_setSlot i _ (.same rfl rfl rfl rfl rfl rfl id)
  · have h : s.Evolves (if (s.slot i).ctl.state = .powerWait then s.depart i else s.leaveStage i) := by
      split
      · exact s.evolves_depart i
      · exact s.evolves_leaveStage i
    generalize (if (s.slot i).ctl.state = .powerWait then s.depart i else s.leaveStage i) = t at h ⊢
    exact .trans (.trans h (by exact State.evolves_modSlot _ _ _ fun _ => .same rfl rfl rfl rfl rfl rfl id))
      (State.evolves_enterDischarging _ _ _)

theorem State.evolves_minOffExpiry (s : State) (i : SlotId) : s.Evolves (s.minOffExpiry i) :=
  s.evolves_when _ _ (.trans (by exact s.evolves_setSlot i _ (.same rfl rfl rfl rfl rfl rfl id)) (State.evolves_dischargeCheck _ _))

theorem State.evolves_dischargeExpiry (s : State) (i : SlotId) : s.Evolves (s.dischargeExpiry i) := by
  refine s.evolves_when _ _ (.trans ?_ (State.evolves_enterQuarantined _ _ _))
  split
  · exact s.evolves_report _ _ _ _
  · exact .refl _

theorem State.evolves_rampExpiry (s : State) (i : SlotId) : s.Evolves (s.rampExpiry i) := by
  refine s.evolves_when _ _ ?_
  split
  · exact (s.evolves_release i).trans (State.evolves_enterResetting _ _)
  · exact s.evolves_attemptFailure i _

theorem State.evolves_pulseExpiry (s : State) (i : SlotId) : s.Evolves (s.pulseExpiry i) :=
  s.evolves_when _ _ (s.evolves_enterTraining i)

theorem State.evolves_trainingExpiry (s : State) (i : SlotId) : s.Evolves (s.trainingExpiry i) :=
  s.evolves_when _ _ (s.evolves_attemptFailure i _)

theorem State.evolves_restoreExpiry (s : State) (i : SlotId) : s.Evolves (s.restoreExpiry i) :=
  s.evolves_when _ _ (s.evolves_attemptFailure i _)

theorem State.evolves_resendExpiry (s : State) (i : SlotId) : s.Evolves (s.resendExpiry i) :=
  s.evolves_when _ _ (.trans (by exact s.evolves_setSlot i _ (.same rfl rfl rfl rfl rfl rfl id)) (State.evolves_replayNext _ _))

theorem State.evolves_replayDeadline (s : State) (i : SlotId) : s.Evolves (s.replayDeadline i) :=
  s.evolves_when _ _ (s.evolves_attemptFailure i _)

theorem State.evolves_decisionExpiry (s : State) (i : SlotId) : s.Evolves (s.decisionExpiry i) := by
  refine s.evolves_when _ _ ?_
  split
  · exact s.evolves_firstAttempt i
  · exact s.evolves_enterQuarantined i _

theorem State.evolves_replayCompletion (s : State) (i : SlotId) (c : Completion) : s.Evolves (s.replayCompletion i c) := by
  unfold State.replayCompletion
  dsimp only
  split
  · split
    · split
      · exact .trans (by exact s.evolves_setSlot i _ (.same rfl rfl rfl rfl rfl rfl id)) (State.evolves_replayNext _ _)
      · exact .refl _
    · exact s.evolves_setSlot i _ (.same rfl rfl rfl rfl rfl rfl id)
    · exact s.evolves_attemptFailure i _
  · exact .refl _

end Sys2Proof.Machine
end

