-- ==== Sys2Proof/Laws/KeptEvents.lean ====
section
/-! SUPPORT. The operations of chapters 1 to 4, 8, 9 and 11 that the commands call: each keeps the command queue and what is sound. -/

namespace Sys2Proof.Machine

/-! ### Fencing -/

theorem State.evolves_sweepLoop (i : SlotId) (l : List Entry) : ∀ s : State, s.Evolves (State.sweepLoop i l s) := by
  induction l with
  | nil => exact fun s => .refl _
  | cons e rest ih =>
    intro s
    unfold State.sweepLoop
    exact .trans (.trans (by exact s.evolves_toHost i _) (State.evolves_freeEntry _ i e.tag)) (ih _)

theorem State.evolves_sweep (s : State) (i : SlotId) : s.Evolves (s.sweep i) := State.evolves_sweepLoop i _ s

theorem State.evolves_leaveFencing (s : State) (i : SlotId) : s.Evolves (s.leaveFencing i) := by
  unfold State.leaveFencing
  split
  · exact s.evolves_enterDischarging i _
  · exact s.evolves_enterIsolated i

theorem State.evolves_endDrain (s : State) (i : SlotId) : s.Evolves (s.endDrain i) :=
  (s.evolves_sweep i).trans (State.evolves_leaveFencing _ _)

theorem Slot.ranged_allGhosts (a : Slot) (h : a.ranged) : ({ a with outbound := a.outbound.allGhosts } : Slot).ranged := by
  refine ⟨h.1, h.2.1, h.2.2.1, ?_⟩
  have hm : (a.outbound.allGhosts.tags.map fun t => t.tag) = a.outbound.tags.map fun t => t.tag := by
    simp [Outbound.allGhosts, Function.comp_def]
  exact ⟨hm ▸ h.2.2.2.1, by simpa [Outbound.allGhosts] using h.2.2.2.2⟩

theorem State.evolves_fence (s : State) (i : SlotId) (r : Reason) (d : Disposition) : s.Evolves (s.fence i r d) := by
  unfold State.fence
  refine s.evolves_when _ _ ?_
  dsimp only
  generalize (if r = .removed then 0 else (s.slot i).policy.drain) = drain
  have h := s.evolves_drive i (fun sl =>
      { sl.moveTo .fencing with
        ctl.reason := some r
        ctl.disposition := some d
        ctl.powerCut := sl.ctl.powerCut || r = .overcurrent
        ctl.drainTimer := some (s.after drain)
        outbound := sl.outbound.allGhosts }) fun a => .move .fencing rfl rfl rfl rfl rfl rfl (Slot.ranged_allGhosts a)
  generalize State.drive s i _ = t at h ⊢
  have h₂ := (h.trans (t.evolves_absorbHeld i)).trans (State.evolves_blockHeld _ i)
  generalize State.blockHeld _ _ = u at h₂ ⊢
  have h₃ := h₂.trans (u.evolves_reportState i (some r) (some (u.slot i).ctl.score))
  generalize State.reportState _ _ _ _ = v at h₃ ⊢
  split
  · exact h₃.trans (v.evolves_endDrain i)
  · exact h₃

theorem State.evolves_removeEntry (s : State) (i : SlotId) (tag : Tag) : s.Evolves (s.removeEntry i tag) := by
  unfold State.removeEntry
  dsimp only
  have h := s.evolves_freeEntry i tag
  generalize State.freeEntry s i tag = t at h ⊢
  split
  · exact h.trans (t.evolves_leaveFencing i)
  · exact h

theorem State.evolves_drainExpiry (s : State) (i : SlotId) : s.Evolves (s.drainExpiry i) :=
  s.evolves_when _ _ (s.evolves_endDrain i)

theorem State.evolves_overcurrentInFencing (s : State) (i : SlotId) : s.Evolves (s.overcurrentInFencing i) :=
  .trans (by exact s.evolves_drive i _ fun _ => .same rfl rfl rfl rfl rfl rfl id) (State.evolves_endDrain _ _)

theorem State.evolves_removedInFencing (s : State) (i : SlotId) : s.Evolves (s.removedInFencing i) :=
  (s.evolves_sweep i).trans (State.evolves_enterDischarging _ _ _)

/-! ### Scoring -/

theorem State.evolves_enterService (s : State) (i : SlotId) (st : SlotState) : s.Evolves (s.enterService i st) := by
  unfold State.enterService
  exact .trans (by exact s.evolves_drive i _ fun _ => .move st rfl rfl rfl rfl rfl rfl id) (State.evolves_reportState _ _ _ _)

theorem State.evolves_evaluate (s : State) (i : SlotId) (w : Reason) : s.Evolves (s.evaluate i w) := by
  unfold State.evaluate
  split
  · exact .refl _
  · exact (s.evolves_report _ _ _ _).trans (State.evolves_fence _ _ _ _)
  · exact s.evolves_enterService i _
  · exact s.evolves_enterService i _

theorem State.evolves_cardFault (s : State) (i : SlotId) (n : Nat) (w : Reason) : s.Evolves (s.cardFault i n w) :=
  s.evolves_when _ _ (.trans (by exact s.evolves_modSlot i _ fun _ =>
    ⟨fun ⟨h₁, _, h₃⟩ => ⟨h₁, Nat.min_le_right _ _, h₃⟩, id, id⟩) (State.evolves_evaluate _ i w))

theorem State.evolves_mapSlots (s : State) (f : Slot → Slot) (h : ∀ a : Slot, a.Evolves (f a)) : s.Evolves (s.mapSlots f) :=
  ⟨rfl, id, id, fun i => by rw [State.slot_mapSlots]; exact h _⟩

theorem Slot.evolves_decay (sl : Slot) : sl.Evolves sl.decay := by
  refine ⟨fun ⟨h₁, h₂, h₃⟩ => ⟨h₁, ?_, h₃⟩, id, id⟩
  simp only [Slot.decay]
  split <;> omega

theorem State.evolves_evaluateAll (n : Nat) : ∀ (l : List SlotId) (s : State), s.Evolves (State.evaluateAll n l s) := by
  induction n with
  | zero =>
    rintro (_ | ⟨i, _ | ⟨j, rest⟩⟩) s
    · exact .refl _
    · exact s.evolves_evaluate i _
    · exact .refl _
  | succ n ih =>
    rintro (_ | ⟨i, _ | ⟨j, rest⟩⟩) s
    · exact .refl _
    · exact s.evolves_evaluate i _
    · exact .trans (.trans (by exact .shared (t := { s with freeCount := s.freeCount + 1 }) rfl rfl rfl id)
        (State.evolves_evaluate _ _ .decay)) (ih _ _)

theorem State.evolves_decayEvent (s : State) : s.Evolves s.decayEvent := by
  unfold State.decayEvent
  refine s.evolves_when _ _ ?_
  dsimp only
  exact .trans (.trans (by exact .shared (t := { s with scorer.decayTimer := _ }) rfl rfl rfl id)
    (State.evolves_mapSlots _ _ Slot.evolves_decay)) (State.evolves_evaluateAll _ _ _)

theorem State.evolves_calertAssertion (s : State) (i : SlotId) : s.Evolves (s.calertAssertion i) := by
  unfold State.calertAssertion
  exact s.evolves_when _ _ (.trans (by exact s.evolves_modSlot i _ fun _ => .same rfl rfl rfl rfl rfl rfl id)
    (State.evolves_when _ _ _ (State.evolves_fence _ _ _ _)))

theorem State.evolves_calertRelease (s : State) (i : SlotId) : s.Evolves (s.calertRelease i) :=
  s.evolves_setSlot i _ (.same rfl rfl rfl rfl rfl rfl id)

/-! ### The pending table -/

theorem Slot.evolves_capture (sl : Slot) (f : List Span) (e : Entry) (c : Completion) : sl.Evolves (sl.capture f e c) := by
  unfold Slot.capture
  dsimp only
  split <;> split <;>
    first
    | exact ⟨id, fun h => ImageStore.sound_record h _ _ _ _, id⟩
    | exact ⟨id, id, id⟩

theorem Slot.ranged_deliver (sl : Slot) (tag : Tag) (n : Nat) (h : sl.ranged) : (sl.deliver tag n).ranged := by
  have hm : ((sl.deliver tag n).entries.map fun e => e.tag) = sl.entries.map fun e => e.tag := by
    simp only [Slot.deliver, List.map_map]
    apply List.map_congr_left
    intro e _
    simp only [Function.comp]
    split <;> rfl
  exact ⟨h.1, h.2.1, ⟨hm ▸ h.2.2.1.1, by simpa [Slot.deliver] using h.2.2.1.2⟩, h.2.2.2⟩

theorem State.evolves_matchCompletion (s : State) (i : SlotId) (c : Completion) : s.Evolves (s.matchCompletion i c) := by
  unfold State.matchCompletion
  split
  · exact s.evolves_cardFault i _ _
  · split
    · exact s.evolves_cardFault i _ _
    · exact .trans (by exact s.evolves_toHost i _)
        (State.evolves_modSlot _ _ _ fun a => by exact .same rfl rfl rfl rfl rfl rfl (a.ranged_deliver _ _))
    · exact .trans (.trans (by exact s.evolves_toHost i _)
        (State.evolves_modSlot _ _ _ fun a => a.evolves_capture _ _ _)) (State.evolves_removeEntry _ _ _)

theorem State.evolves_cardCompletion (s : State) (i : SlotId) (d : Addressee) (c : Completion) :
    s.Evolves (s.cardCompletion i d c) := by
  refine s.evolves_when _ _ ?_
  split
  · exact s.evolves_replayCompletion i c
  · exact s.evolves_when _ _ (s.evolves_matchCompletion i c)

theorem State.evolves_entryExpiry (s : State) (i : SlotId) (tag : Tag) : s.Evolves (s.entryExpiry i tag) := by
  unfold State.entryExpiry
  split
  · exact .refl _
  · dsimp only
    exact .trans (.trans (by exact s.evolves_toHost i _) (State.evolves_removeEntry _ _ _)) (State.evolves_cardFault _ _ _ _)

theorem State.evolves_holdExpiry (s : State) (i : SlotId) : s.Evolves (s.holdExpiry i) := by
  unfold State.holdExpiry
  split
  · exact .refl _
  · refine s.evolves_when _ _ ?_
    dsimp only
    have h := s.evolves_emptyHold i
    generalize State.emptyHold s i = t at h ⊢
    split
    · exact .trans (h.trans (t.evolves_countDropped i)) (State.evolves_cardFault _ _ _ _)
    · exact .trans (.trans (h.trans (t.evolves_toHost i _)) (State.evolves_countAbsorbed _ _)) (State.evolves_cardFault _ _ _ _)

/-! ### The card's own requests -/

theorem State.evolves_errant (s : State) (i : SlotId) (a : BitVec 48) (w : Reason) : s.Evolves (s.errant i a w) := by
  unfold State.errant
  dsimp only
  split
  · exact s.evolves_cardFault i _ _
  · exact .trans (.trans (by exact s.evolves_report _ _ _ _)
      (State.evolves_modSlot _ _ _ fun _ => by exact .same rfl rfl rfl rfl rfl rfl id)) (State.evolves_cardFault _ _ _ _)

theorem State.slot_toHost (s : State) (i : SlotId) (o : HostOut) :
    (s.toHost i o).slot i = { s.slot i with chan.hostOut := (s.slot i).chan.hostOut ++ [o] } :=
  State.slot_setSlot_self _ _ _

/-- R73: a read goes to the checker only with its tag not held and room in the set. -/
theorem State.evolves_throughChecker (s : State) (i : SlotId) (r : Request)
    (h : r.posted = false → (s.slot i).outbound.lookup r.tag = none ∧ (s.slot i).outbound.tags.length < 32) :
    s.Evolves (s.throughChecker i r) := by
  unfold State.throughChecker
  split
  · split
    · rename_i hk _ _
      have h' := h (by simp [Request.posted, hk])
      refine .trans (by exact s.evolves_toHost i (.request r)) (State.evolves_setSlot _ _ _ ?_)
      rw [State.slot_toHost]
      exact .same rfl rfl rfl rfl rfl rfl (Slot.ranged_join r.tag h'.1 h'.2)
    · exact (s.evolves_toCard i _).trans (State.evolves_errant _ _ _ _)
  · split
    · exact s.evolves_toHost i _
    · exact s.evolves_errant i _ _
  · exact s.evolves_toHost i _

theorem State.evolves_cardOpen (s : State) (i : SlotId) (r : Request) : s.Evolves (s.cardOpen i r) := by
  unfold State.cardOpen
  dsimp only
  split
  · exact s.evolves_throughChecker i r fun h => absurd h (by simp_all)
  · split
    · split
      · exact s.evolves_setSlot i _ (.same rfl rfl rfl rfl rfl rfl id)
      · exact (s.evolves_toCard i _).trans (State.evolves_report _ _ _ _ _)
    · split
      · exact s.evolves_setSlot i _ (.same rfl rfl rfl rfl rfl rfl id)
      · rename_i hn hc
        exact s.evolves_throughChecker i r fun _ => ⟨hn, Nat.lt_of_not_le hc⟩

theorem State.evolves_cardArrive (s : State) (i : SlotId) (r : Request) : s.Evolves (s.cardArrive i r) := by
  unfold State.cardArrive
  split
  · exact s.evolves_toCard i _
  · split
    · exact s.evolves_cardOpen i r
    · exact s.evolves_blockCard i r

theorem State.evolves_cardRequest (s : State) (i : SlotId) (r : Request) : s.Evolves (s.cardRequest i r) := by
  unfold State.cardRequest
  refine s.evolves_when _ _ ?_
  split
  · exact s.evolves_setSlot i _ (.same rfl rfl rfl rfl rfl rfl id)
  · exact s.evolves_cardArrive i r

theorem State.evolves_takeCardWaiting (s : State) (i : SlotId) : s.Evolves (s.takeCardWaiting i) := by
  unfold State.takeCardWaiting
  split
  · exact .refl _
  · exact .trans (by exact s.evolves_setSlot i _ (.same rfl rfl rfl rfl rfl rfl id)) (State.evolves_cardArrive _ _ _)

theorem State.evolves_retryCard (s : State) (i : SlotId) : s.Evolves (s.retryCard i) := by
  unfold State.retryCard
  split
  · exact .refl _
  · refine s.evolves_when _ _ ?_
    exact .trans (by exact s.evolves_setSlot i _ (.same rfl rfl rfl rfl rfl rfl id)) (State.evolves_cardOpen _ _ _)

theorem State.evolves_leaveOutbound (s : State) (i : SlotId) (tag : Tag) : s.Evolves (s.leaveOutbound i tag) :=
  .trans (by exact s.evolves_setSlot i _ (.same rfl rfl rfl rfl rfl rfl (Slot.ranged_fewerTags List.filter_sublist)))
    (State.evolves_retryCard _ _)

theorem State.evolves_takeHostCompletion (s : State) (i : SlotId) (c : Completion) :
    s.Evolves (s.takeHostCompletion i c) := by
  unfold State.takeHostCompletion
  dsimp only
  split
  · rename_i t _
    have h : s.Evolves (if (s.slot i).inService && !t.ghost then s.toCard i (.completion c) else s) := by
      split
      · exact s.evolves_toCard i _
      · exact .refl _
    generalize (if (s.slot i).inService && !t.ghost then s.toCard i (.completion c) else s) = u at h ⊢
    split
    · exact h.trans (u.evolves_leaveOutbound i _)
    · exact h
  · split
    · exact s.evolves_report _ _ _ _
    · exact .refl _

theorem State.evolves_hostCompletion (s : State) (i : SlotId) (c : Completion) : s.Evolves (s.hostCompletion i c) :=
  s.evolves_when _ _ (s.evolves_takeHostCompletion i c)

theorem State.evolves_ghostDeadline (s : State) (i : SlotId) : s.Evolves (s.ghostDeadline i) :=
  s.evolves_when _ _ (.trans
    (by exact s.evolves_setSlot i _ (.same rfl rfl rfl rfl rfl rfl (Slot.ranged_fewerTags List.filter_sublist)))
    (State.evolves_retryCard _ _))

/-! ### The links -/

theorem State.evolves_linkDown (s : State) (i : SlotId) : s.Evolves (s.linkDown i) := by
  unfold State.linkDown
  dsimp only
  have h := s.evolves_modSlot i (fun sl => { sl with chan.linkUp := false, chan.cardWaiting := [] }) fun _ =>
    .same rfl rfl rfl rfl rfl rfl id
  generalize State.modSlot s i _ = t at h ⊢
  split
  · have h₂ := h.trans (t.evolves_cardFault i t.scorer.linkDown .linkDown)
    generalize State.cardFault _ _ _ _ = u at h₂ ⊢
    exact h₂.trans (u.evolves_when _ _ (u.evolves_modSlot i _ fun _ => by exact .same rfl rfl rfl rfl rfl rfl id))
  · split
    · exact h.trans (t.evolves_attemptFailure i _)
    · exact h

theorem State.evolves_linkUp (s : State) (i : SlotId) : s.Evolves (s.linkUp i) := by
  unfold State.linkUp
  dsimp only
  have h := s.evolves_modSlot i (fun sl => { sl with chan.linkUp := true }) fun _ => .same rfl rfl rfl rfl rfl rfl id
  generalize State.modSlot s i _ = t at h ⊢
  split
  · exact h.trans (.trans (by exact t.evolves_modSlot i _ fun _ => .same rfl rfl rfl rfl rfl rfl id)
      (State.evolves_offerHeld _ _))
  · split
    · exact h.trans (t.evolves_enterRestoring i)
    · exact h

theorem State.evolves_graceExpiry (s : State) (i : SlotId) : s.Evolves (s.graceExpiry i) :=
  s.evolves_when _ _ (s.evolves_fence i _ _)

theorem State.evolves_upstreamClear (s : State) (i : SlotId) : s.Evolves (s.upstreamClear i) := by
  unfold State.upstreamClear
  exact .trans (by exact s.evolves_modSlot i _ fun _ =>
    ⟨id, fun _ => ImageStore.sound_of_empty rfl, Slot.ranged_fewerTags (List.nil_sublist _)⟩) (State.evolves_emptyHold _ i)

theorem State.evolves_discardLoop (i : SlotId) (l : List Entry) : ∀ s : State, s.Evolves (State.discardLoop i l s) := by
  induction l with
  | nil => exact fun s => .refl _
  | cons e rest ih =>
    intro s
    unfold State.discardLoop
    exact (s.evolves_freeEntry i _).trans (ih _)

theorem State.evolves_discardEntries (s : State) (i : SlotId) : s.Evolves (s.discardEntries i) :=
  State.evolves_discardLoop i _ s

theorem State.evolves_enterUpstream (s : State) (i : SlotId) : s.Evolves (s.enterUpstream i) :=
  s.evolves_drive i _ fun _ => .move .resetting rfl rfl rfl rfl rfl rfl fun h => ⟨h.1, h.1.2.1.1, h.2.2⟩

theorem State.evolves_upstreamReset (s : State) (i : SlotId) : s.Evolves (s.upstreamReset i) := by
  unfold State.upstreamReset
  dsimp only
  have h := (s.evolves_upstreamClear i).trans (State.evolves_discardEntries _ i)
  generalize State.discardEntries _ _ = t at h ⊢
  split
  · exact h.trans (t.evolves_enterUpstream i)
  · split
    · exact h.trans (t.evolves_leaveFencing i)
    · exact h.trans (t.evolves_replayCleared i)

theorem State.evolves_upstreamRelease (s : State) (i : SlotId) : s.Evolves (s.upstreamRelease i) :=
  s.evolves_when _ _ (by exact s.evolves_modSlot i _ fun _ => .same rfl rfl rfl rfl rfl rfl id)

theorem State.evolves_dropImage (s : State) (i : SlotId) : s.Evolves (s.dropImage i) :=
  .trans (by exact s.evolves_modSlot i _ fun _ => ⟨id, fun _ => ImageStore.sound_of_empty rfl, id⟩)
    (State.evolves_replayCleared _ _)

/-! ### Pins, presence and rails -/

theorem State.evolves_setPinMode (s : State) (i : SlotId) (m : PinMode) : s.Evolves (s.setPinMode i m) := by
  unfold State.setPinMode
  dsimp only
  have h := s.evolves_drive i (fun sl => { sl with pins.mode := m }) fun _ => .same rfl rfl rfl rfl rfl rfl id
  generalize State.drive s i _ = t at h ⊢
  exact h.trans (t.evolves_when _ _ (by exact t.evolves_modSlot i _ fun _ => .same rfl rfl rfl rfl rfl rfl id))

theorem State.evolves_forceLive (s : State) (i : SlotId) : s.Evolves (s.forceLive i) := by
  unfold State.forceLive
  split
  · exact .refl _
  · exact s.evolves_setPinMode i _

theorem State.evolves_pwrenChange (s : State) (i : SlotId) (b : Bool) : s.Evolves (s.pwrenChange i b) :=
  s.evolves_drive i _ fun _ => .same rfl rfl rfl rfl rfl rfl id

theorem State.evolves_blinkToggle (s : State) (i : SlotId) : s.Evolves (s.blinkToggle i) :=
  s.evolves_when _ _ (by exact s.evolves_modSlot i _ fun _ => .same rfl rfl rfl rfl rfl rfl id)

theorem State.evolves_prsntChange (s : State) (i : SlotId) (b : Bool) : s.Evolves (s.prsntChange i b) :=
  s.evolves_when _ _ (by exact s.evolves_modSlot i _ fun _ => .same rfl rfl rfl rfl rfl rfl id)

theorem State.evolves_insertion (s : State) (i : SlotId) : s.Evolves (s.insertion i) := by
  unfold State.insertion
  dsimp only
  have h := s.evolves_modSlot i (fun sl => { sl with ctl.present := true }) fun _ => .same rfl rfl rfl rfl rfl rfl id
  generalize State.modSlot s i _ = t at h ⊢
  refine h.trans (t.evolves_when _ _ ?_)
  have h₂ := t.evolves_modSlot i (fun sl => { sl with ctl.reason := some .inserted }) fun _ =>
    .same rfl rfl rfl rfl rfl rfl id
  generalize State.modSlot t i _ = u at h₂ ⊢
  split
  · exact h₂.trans (u.evolves_startAttempt i _ _)
  · exact h₂.trans (u.evolves_enterOff i)

theorem State.evolves_powerAway (s : State) (i : SlotId) (r : Reason) : s.Evolves (s.powerAway i r) :=
  .trans (by exact s.evolves_modSlot i _ fun _ => .same rfl rfl rfl rfl rfl rfl id) (State.evolves_enterDischarging _ _ _)

theorem State.evolves_abandonAttempt (s : State) (i : SlotId) (r : Reason) : s.Evolves (s.abandonAttempt i r) := by
  unfold State.abandonAttempt
  split
  · exact .refl _
  · exact s.evolves_abandon i r

theorem State.evolves_loss (s : State) (i : SlotId) : s.Evolves (s.loss i) := by
  unfold State.loss
  dsimp only
  have h := s.evolves_modSlot i (fun sl => { sl with ctl.present := false }) fun _ => .same rfl rfl rfl rfl rfl rfl id
  generalize State.modSlot s i _ = t at h ⊢
  refine h.trans ?_
  split
  · exact .refl _
  · exact t.evolves_enterEmpty i
  · exact t.evolves_fence i _ _
  · exact t.evolves_fence i _ _
  · exact t.evolves_removedInFencing i
  · exact t.evolves_powerAway i _
  · exact t.evolves_powerAway i _
  · exact t.evolves_abandonAttempt i _

theorem State.evolves_debounceExpiry (s : State) (i : SlotId) : s.Evolves (s.debounceExpiry i) := by
  refine s.evolves_when _ _ ?_
  dsimp only
  have h := s.evolves_modSlot i (fun sl =>
    { sl with pins.delivered := (s.slot i).pins.prsnt, pins.debounce := none, pins.startUp := false }) fun _ =>
      .same rfl rfl rfl rfl rfl rfl id
  generalize State.modSlot s i _ = t at h ⊢
  split
  · exact (h.trans (t.evolves_report _ _ _ _)).trans (State.evolves_insertion _ _)
  · exact (h.trans (t.evolves_report _ _ _ _)).trans (State.evolves_loss _ _)

theorem State.evolves_overcurrentByState (s : State) (i : SlotId) : s.Evolves (s.overcurrentByState i) := by
  unfold State.overcurrentByState
  split
  · exact s.evolves_fence i _ _
  · exact s.evolves_fence i _ _
  · exact s.evolves_overcurrentInFencing i
  · exact s.evolves_drive i _ fun _ => .same rfl rfl rfl rfl rfl rfl id
  · exact s.evolves_attemptFailure i _
  · exact s.evolves_attemptFailure i _
  · exact s.evolves_attemptFailure i _
  · exact s.evolves_attemptFailure i _
  · exact .refl _

theorem State.evolves_overcurrent (s : State) (i : SlotId) (w : Reason) (n : Nat) : s.Evolves (s.overcurrent i w n) :=
  ((s.evolves_report _ _ _ _).trans (State.evolves_forceLive _ _)).trans (State.evolves_overcurrentByState _ _)

theorem State.evolves_currentSample (s : State) (i : SlotId) (n : Nat) : s.Evolves (s.currentSample i n) := by
  unfold State.currentSample
  dsimp only
  refine s.evolves_when _ _ ?_
  split
  · exact s.evolves_setSlot i _ (.same rfl rfl rfl rfl rfl rfl id)
  · split
    · exact s.evolves_setSlot i _ (.same rfl rfl rfl rfl rfl rfl id)
    · exact .trans (by exact s.evolves_setSlot i _ (.same rfl rfl rfl rfl rfl rfl id)) (State.evolves_overcurrent _ _ _ _)

theorem State.evolves_keepResult (s : State) (i : SlotId) (p : Nat) (r : RailResult) : s.Evolves (s.keepResult i p r) := by
  unfold State.keepResult
  split
  · exact .trans (by exact s.evolves_setSlot i _ (.same rfl rfl rfl rfl rfl rfl id)) (State.evolves_dischargeCheck _ _)
  · exact .trans (by exact s.evolves_setSlot i _ (.same rfl rfl rfl rfl rfl rfl id)) (State.evolves_dischargeCheck _ _)
  · exact .trans (by exact s.evolves_setSlot i _ (.same rfl rfl rfl rfl rfl rfl id)) (State.evolves_currentSample _ _ _)

theorem State.evolves_nextConversion (s : State) : s.Evolves s.nextConversion := .shared rfl rfl rfl id

theorem State.evolves_conversionEnd (s : State) (q : Quantity) : s.Evolves (s.conversionEnd q) := by
  refine s.evolves_when _ _ ?_
  dsimp only
  have h := s.evolves_nextConversion
  generalize State.nextConversion s = t at h ⊢
  split
  · exact h
  · exact h.trans (t.evolves_keepResult _ _ _)

theorem State.evolves_prsntPin (s : State) (i : SlotId) (b : Bool) : s.Evolves (s.prsntPin i b) := by
  unfold State.prsntPin
  split
  · exact s.evolves_setSlot i _ (.same rfl rfl rfl rfl rfl rfl id)
  · exact s.evolves_prsntChange i b

theorem State.evolves_calertPin (s : State) (i : SlotId) : s.Evolves (s.calertPin i) := by
  unfold State.calertPin
  split
  · exact s.evolves_setSlot i _ (.same rfl rfl rfl rfl rfl rfl id)
  · exact s.evolves_calertAssertion i

theorem State.evolves_pwrenPin (s : State) (i : SlotId) (b : Bool) : s.Evolves (s.pwrenPin i b) := by
  unfold State.pwrenPin
  split
  · exact s.evolves_setSlot i _ (.same rfl rfl rfl rfl rfl rfl id)
  · exact s.evolves_pwrenChange i b

end Sys2Proof.Machine
end

