-- ==== Sys2Proof/Laws/KeptLine.lean ====
section
/-! SUPPORT. The requests of the management link, the line and the resets: each keeps the command queue and what is sound. -/

namespace Sys2Proof.Machine

/-! ### Requests -/

theorem State.evolves_forSlot (s : State) (sb : Byte) (f : SlotId → Answer) (h : ∀ i, s.Evolves (f i).after) :
    s.Evolves (s.forSlot sb f).after := by
  unfold State.forSlot
  split
  · exact h _
  · exact .refl _

theorem State.evolves_forPart (s : State) (sb : Byte) (a : Answer) (h : s.Evolves a.after) :
    s.Evolves (s.forPart sb a).after := by
  unfold State.forPart
  split
  · exact h
  · exact .refl _

theorem State.evolves_doId (s : State) (h : Option Byte) : s.Evolves (s.doId h).after := by
  cases h
  · exact .refl _
  · exact .shared rfl rfl rfl id

theorem State.evolves_doPinSample (s : State) (i : SlotId) : s.Evolves (s.doPinSample i).after := by
  unfold State.doPinSample State.tell
  dsimp only
  split
  · exact .shared rfl rfl rfl id
  · exact .refl _

theorem State.evolves_doImgRead (s : State) (i : SlotId) (x : Byte) : s.Evolves (s.doImgRead i x).after := by
  unfold State.doImgRead
  dsimp only
  split
  · exact .refl _
  · exact .refl _

theorem State.evolves_doReportTake (s : State) : s.Evolves s.doReportTake.after := by
  refine ⟨rfl, fun h => ⟨?_, h.2⟩, id, fun _ => .refl _⟩
  have := h.1
  simp only [State.doReportTake, List.length_drop]
  omega

/-- R189, R87: SLOT.SET's clamps keep the slot in range. -/
theorem Slot.ranged_clamped (a : Slot) (p : Policy) (h : a.ranged) :
    ({ a with policy := p.clamped a.ctl.attempts } : Slot).ranged := by
  have h4 := h.1.2.1.2
  have ha := h.2.1
  refine Slot.ranged_policy ?_ (Nat.le_max_right _ _) h
  unfold Policy.sound Policy.clamped clamp
  dsimp only
  omega

theorem State.evolves_doSlotSet (s : State) (i : SlotId) (r : RawPolicy) : s.Evolves (s.doSlotSet i r).after := by
  unfold State.doSlotSet State.done State.refuse
  split
  · exact .refl _
  · rename_i sent _
    have h := s.evolves_setSlot i { s.slot i with policy := sent.clamped (s.slot i).ctl.attempts }
      (.same rfl rfl rfl rfl rfl rfl ((s.slot i).ranged_clamped sent))
    dsimp only
    split
    · exact .trans (by exact h) (State.evolves_quotaOffer _ _)
    · exact h

theorem State.evolves_doFence (s : State) (i : SlotId) : s.Evolves (s.doFence i).after := by
  unfold State.doFence
  split
  · exact s.evolves_fence i _ _
  · exact .refl _

theorem State.evolves_doRecover (s : State) (i : SlotId) (k : Byte) : s.Evolves (s.doRecover i k).after := by
  unfold State.doRecover
  dsimp only
  split
  · exact .refl _
  · split
    · exact .refl _
    · split
      · exact s.evolves_startAttempt i ((s.slot i).attemptKind ((s.slot i).namedKind k)) .recovery
      · split
        · exact s.evolves_startAttempt i .cold .recovery
        · exact .refl _

theorem State.evolves_doQuar (s : State) (i : SlotId) : s.Evolves (s.doQuar i).after := by
  unfold State.doQuar
  split
  · exact s.evolves_enterQuarantined i _
  · exact .refl _

theorem State.evolves_doPwrOn (s : State) (i : SlotId) : s.Evolves (s.doPwrOn i).after := by
  unfold State.doPwrOn
  split
  · exact .trans (by exact s.evolves_modSlot i _ fun _ => .same rfl rfl rfl rfl rfl rfl id)
      (State.evolves_startAttempt _ i .cold .bringUp)
  · exact .refl _

theorem State.evolves_doPwrOff (s : State) (i : SlotId) : s.Evolves (s.doPwrOff i).after := by
  unfold State.doPwrOff State.done State.refuse
  split
  · exact .refl _
  · split
    · exact .refl _
    · exact .refl _
    · exact s.evolves_fence i _ _
    · exact s.evolves_fence i _ _
    · exact .refl _
    · exact s.evolves_powerAway i _
    · dsimp only
      have h := s.evolves_modSlot i (fun sl => { sl with ctl.reason := some .command }) fun _ =>
        .same rfl rfl rfl rfl rfl rfl id
      generalize State.modSlot s i _ = t at h ⊢
      split
      · exact h.trans (t.evolves_enterOff i)
      · exact h.trans (t.evolves_enterEmpty i)
    · exact s.evolves_abandonAttempt i _

theorem State.evolves_doWinSet (s : State) (i : SlotId) (ps : List (BitVec 40 × BitVec 40)) :
    s.Evolves (s.doWinSet i ps).after := by
  unfold State.doWinSet
  split
  · exact .refl _
  · exact s.evolves_setSlot i _ (.same rfl rfl rfl rfl rfl rfl id)

theorem State.evolves_doDenySet (s : State) (ps : List (BitVec 40 × BitVec 40)) : s.Evolves (s.doDenySet ps).after := by
  unfold State.doDenySet
  split
  · exact .refl _
  · exact .shared rfl rfl rfl id

theorem State.evolves_doFilterSet (s : State) (rs : List (BitVec 16 × BitVec 16)) : s.Evolves (s.doFilterSet rs).after := by
  unfold State.doFilterSet
  split
  · exact .refl _
  · exact .shared rfl rfl rfl id

theorem State.evolves_doBudgetSet (s : State) (b : Byte) : s.Evolves (s.doBudgetSet b).after :=
  .trans (by exact .shared (t := { s with arbiter.budget := clamp 1 255 b.toNat }) rfl rfl rfl id)
    (State.evolves_grantCheck _)

theorem State.evolves_doScoreSet (s : State) (p : RawScore) : s.Evolves (s.doScoreSet p).after := by
  unfold State.doScoreSet
  dsimp only
  split
  · rename_i h
    refine .shared rfl rfl rfl fun _ => ?_
    have hb : ∀ x : Byte, x.toNat ≤ 255 := fun x => Nat.le_of_lt_succ x.isLt
    exact ⟨⟨hb _, hb _, hb _, hb _, hb _⟩, ⟨h.1, h.2, hb _⟩, Nat.le_min.2 ⟨Nat.le_max_right _ _, by omega⟩, Nat.min_le_right _ _⟩
  · exact .refl _

theorem State.evolves_doImgPut (s : State) (i : SlotId) (o : BitVec 16) (v : Dword) (m : Byte) :
    s.Evolves (s.doImgPut i o v m).after := by
  unfold State.doImgPut
  dsimp only
  split
  · exact .refl _
  · split
    · exact .refl _
    · rename_i hf
      split
      · exact s.evolves_setSlot i _ ⟨id, fun h => ImageStore.sound_mergeAt h _ _ _, id⟩
      · split
        · refine s.evolves_setSlot i _ ⟨id, fun h => ImageStore.sound_append h _ _ ?_ (Bool.eq_false_iff.2 ‹_›) ‹_›, id⟩
          simp only [Bool.or_eq_true, decide_eq_true_eq, not_or, Nat.not_lt] at hf
          intro h0
          have h1 : o.toNat % 1024 = 0 := by
            have := congrArg BitVec.toNat h0
            simpa using this
          have h2 : o.toNat = 0 := by omega
          exact hf.1.1.1 (BitVec.eq_of_toNat_eq (by simpa using h2))
        · exact .refl _

theorem State.evolves_doPinMode (s : State) (i : SlotId) (m : Byte) : s.Evolves (s.doPinMode i m).after := by
  unfold State.doPinMode
  split
  · exact .refl _
  · split
    · exact .refl _
    · split
      · exact s.evolves_setPinMode i _
      · exact .refl _

theorem State.evolves_doPinLoad (s : State) (i : SlotId) (a b c d : Byte) : s.Evolves (s.doPinLoad i a b c d).after := by
  unfold State.doPinLoad State.done State.refuse
  split
  · exact .refl _
  · rename_i l _
    exact s.evolves_drive i (fun sl => { sl with pins.held := l }) fun _ => .same rfl rfl rfl rfl rfl rfl id

theorem State.evolves_perform (s : State) (sb : Byte) (r : BmcRequest) : s.Evolves (s.perform sb r).after := by
  cases r <;> unfold State.perform <;> dsimp only
  case id => exact s.evolves_forPart sb _ (s.evolves_doId _)
  case slotGet => exact s.evolves_forSlot sb _ fun i => (by unfold State.doSlotGet State.tell; exact .refl _)
  case slotSet => exact s.evolves_forSlot sb _ fun i => s.evolves_doSlotSet i _
  case fence => exact s.evolves_forSlot sb _ fun i => s.evolves_doFence i
  case recover => exact s.evolves_forSlot sb _ fun i => s.evolves_doRecover i _
  case quar => exact s.evolves_forSlot sb _ fun i => s.evolves_doQuar i
  case pwrOn => exact s.evolves_forSlot sb _ fun i => s.evolves_doPwrOn i
  case pwrOff => exact s.evolves_forSlot sb _ fun i => s.evolves_doPwrOff i
  case winSet => exact s.evolves_forSlot sb _ fun i => s.evolves_doWinSet i _
  case denySet => exact s.evolves_forPart sb _ (s.evolves_doDenySet _)
  case budgetSet => exact s.evolves_forPart sb _ (s.evolves_doBudgetSet _)
  case scoreSet => exact s.evolves_forPart sb _ (s.evolves_doScoreSet _)
  case imgRead => exact s.evolves_forSlot sb _ fun i => s.evolves_doImgRead i _
  case imgPut => exact s.evolves_forSlot sb _ fun i => s.evolves_doImgPut i _ _ _
  case imgDrop => exact s.evolves_forSlot sb _ fun i => s.evolves_dropImage i
  case filterSet => exact s.evolves_forPart sb _ (s.evolves_doFilterSet _)
  case pinMode => exact s.evolves_forSlot sb _ fun i => s.evolves_doPinMode i _
  case pinLoad => exact s.evolves_forSlot sb _ fun i => s.evolves_doPinLoad i _ _ _ _
  case pinSample => exact s.evolves_forSlot sb _ fun i => s.evolves_doPinSample i
  case railRead => exact s.evolves_forSlot sb _ fun i => (by unfold State.doRailRead State.tell; exact .refl _)
  case reportTake => exact s.evolves_forPart sb _ s.evolves_doReportTake
  case partReset => exact s.evolves_forPart sb _ (.refl _)

/-! ### The line -/

theorem State.evolves_reply {s : State} (a : Answer) (c : Byte) (n m : Nat) (h : s.Evolves a.after) :
    s.Evolves (State.reply a c n m) := h.trans (.shared rfl rfl rfl id)

theorem State.evolves_takeRequest (s : State) (sb : Byte) (r : BmcRequest) (n m : Nat) :
    s.Evolves (s.takeRequest sb r n m) := State.evolves_reply _ _ _ _ (s.evolves_perform sb r)

theorem State.evolves_takeFrame (s : State) (p : List Byte) (n m : Nat) : s.Evolves (s.takeFrame p n m) := by
  unfold State.takeFrame
  split
  · exact State.evolves_reply _ _ _ _ (.refl _)
  · exact State.evolves_reply _ _ _ _ (.refl _)
  · exact s.evolves_takeRequest _ _ _ _

theorem State.evolves_frameBusy (s : State) (p : List Byte) : s.Evolves (s.frameBusy p) := by
  unfold State.frameBusy
  split
  · exact .shared rfl rfl rfl id
  · exact .shared rfl rfl rfl id

theorem State.evolves_frameComplete (s : State) (p : List Byte) : s.Evolves (s.frameComplete p) := by
  unfold State.frameComplete
  split
  · exact s.evolves_takeFrame _ _ _
  · exact s.evolves_frameBusy _

theorem State.evolves_submit (s : State) (sb : Byte) (r : BmcRequest) : s.Evolves (s.submit sb r) := by
  unfold State.submit
  split
  · exact .refl _
  · split
    · exact s.evolves_takeRequest _ _ _ _
    · exact s.evolves_frameBusy _

theorem State.evolves_controlReset (s : State) : s.Evolves s.controlReset := by
  refine ⟨rfl, fun _ => ⟨Nat.zero_le _, Nat.zero_le _⟩, id, fun i => ?_⟩
  rw [show s.controlReset.slot i = (s.mapSlots fun sl => { sl with rails.runCount := 0 }).slot i from rfl,
    State.slot_mapSlots]
  exact .same rfl rfl rfl rfl rfl rfl id

theorem State.evolves_replyStart (s : State) : s.Evolves s.replyStart := by
  unfold State.replyStart
  split
  · exact .refl _
  · exact s.evolves_when _ _ (.shared rfl rfl rfl id)

theorem State.evolves_replySent (s : State) : s.Evolves s.replySent := by
  unfold State.replySent
  split
  · exact .refl _
  · rename_i p _
    refine s.evolves_when _ _ ?_
    dsimp only
    split
    · exact .trans (by exact .shared (t := { s with
        link.inProcess := none
        link.sent := s.link.sent ++ [SentFrame.mk (frameOf p.reply) true] }) rfl rfl rfl id) (State.evolves_controlReset _)
    · split
      · exact .shared rfl rfl rfl id
      · exact .trans (by exact .shared rfl rfl rfl id) (State.evolves_takeFrame _ _ _ _)

theorem State.evolves_goodCharacter (s : State) (v : Byte) : s.Evolves (s.goodCharacter v) := by
  unfold State.goodCharacter
  dsimp only
  split
  · split
    · exact .shared rfl rfl rfl id
    · exact .refl _
  · split
    · exact .shared rfl rfl rfl id
    · exact .shared rfl rfl rfl id
  · exact .shared rfl rfl rfl id
  · split
    · exact .trans (by exact .shared (t := { s with link := s.link.hunt }) rfl rfl rfl id) (State.evolves_frameComplete _ _)
    · exact .shared rfl rfl rfl id

theorem State.evolves_characterReceived (s : State) (v : Byte) (b : Bool) : s.Evolves (s.characterReceived v b) := by
  unfold State.characterReceived
  refine s.evolves_when _ _ ?_
  split
  · exact s.evolves_goodCharacter v
  · exact .shared rfl rfl rfl id

theorem State.evolves_gapExpiry (s : State) : s.Evolves s.gapExpiry := s.evolves_when _ _ (.shared rfl rfl rfl id)

/-! ### Resets -/

/-- The policy record's defaults lie in its ranges (R189). -/
theorem Policy.sound_default (autoon : Bool) : (Policy.default autoon).sound := by cases autoon <;> decide

/-- The scorer's defaults satisfy R45. -/
theorem Scorer.sound_powerOn : Scorer.powerOn.sound := by decide

theorem State.evolves_powerOnReset (s : State) : s.Evolves s.powerOnReset := by
  refine ⟨rfl, fun _ => ⟨Nat.zero_le _, Nat.zero_le _⟩, fun _ => Scorer.sound_powerOn, fun i => ?_⟩
  rw [show s.powerOnReset.slot i = (s.mapSlots Slot.toPowerOn).slot i from rfl, State.slot_mapSlots]
  exact ⟨fun _ => ⟨rfl, Nat.zero_le _, Nat.zero_le _, Nat.zero_le _⟩, fun _ => ImageStore.sound_of_empty rfl, fun _ =>
    ⟨Policy.sound_default false, Nat.zero_le _, ⟨List.nodup_nil, Nat.zero_le _⟩, List.nodup_nil, Nat.zero_le _⟩⟩

theorem State.evolves_endOfPowerOnReset (s : State) (r a : Bool) : s.Evolves (s.endOfPowerOnReset r a) := by
  refine s.evolves_when _ _ ⟨rfl, id, fun _ => Scorer.sound_powerOn, fun i => ?_⟩
  change (s.slot i).Evolves ((s.mapSlots (Slot.startUp a)).slot i)
  rw [State.slot_mapSlots]
  exact .same rfl rfl rfl rfl rfl rfl id

theorem State.evolves_cresetAssert (s : State) : s.Evolves s.cresetAssert := by
  unfold State.cresetAssert
  split
  · exact .refl _
  · split
    · exact .shared rfl rfl rfl id
    · exact .trans s.evolves_controlReset (.shared rfl rfl rfl id)

theorem State.evolves_cresetRelease (s : State) : s.Evolves s.cresetRelease := .shared rfl rfl rfl id

end Sys2Proof.Machine
end

