-- ==== Sys2Proof/Laws/Offers.lean ====
section
/-! SUPPORT. The offer of a held request (R9, R23, R25) and of a freed entry (R26, R33) as the closed forms of Safety.lean. -/

namespace Sys2Proof.Machine

/-- R23: admission as its four checks. -/
theorem State.admission_eq (s : State) (i : SlotId) (r : Request) :
    s.admission i r =
      if ∃ e ∈ (s.slot i).entries, e.tag = r.tag then .collision
      else if (s.slot i).policy.quota ≤ (s.slot i).entries.length then .quota
      else if s.poolFree = 0 then .pool
      else .admitted := by
  unfold State.admission Slot.pendingTag
  simp only [List.any_eq_true, beq_iff_eq]

/-- R9, R23, R25: the offer of a held request of a slot in service with its card link UP. -/
theorem State.offerHeld_eq {s : State} {i : SlotId} {h : Held} (hs : (s.slot i).serving)
    (hl : (s.slot i).chan.linkUp = true) (hh : (s.slot i).chan.hold = some h) : s.offerHeld i = s.reoffers i h := by
  have hm : (s.slot i).holdMayProceed = true := by simp [Slot.holdMayProceed, Slot.inService_of_serving hs, hl]
  have he : s.emptyHold i = ({ s with poolWait := s.poolWait.filter fun j => j ≠ i } : State).setSlot i
      { s.slot i with chan.hold := none } := rfl
  have hc : ∀ (t : State) (x y : Slot), (t.setSlot i x).modSlot i (fun _ => y) = t.setSlot i y := by
    intro t x y; rw [State.modSlot, State.setSlot_setSlot]
  unfold State.offerHeld State.reoffers
  rw [hh]
  dsimp only
  rw [if_pos hm, State.admission_eq]
  by_cases hp : h.req.posted = true
  · rw [if_pos hp, if_pos hp, he, State.toCard, State.modSlot, State.slot_setSlot_self, State.setSlot_setSlot]
    rfl
  · rw [if_neg hp, if_neg hp]
    by_cases h₁ : ∃ e ∈ (s.slot i).entries, e.tag = h.req.tag
    · rw [if_pos h₁, if_pos h₁, he]
      simp only [State.refuseTag, State.toHost, State.report_eq]
      rw [State.modSlot, State.slot_setSlot_self, State.setSlot_setSlot]
      rfl
    · rw [if_neg h₁, if_neg h₁]
      by_cases h₂ : (s.slot i).policy.quota ≤ (s.slot i).entries.length
      · rw [if_pos h₂, if_pos h₂]
        rfl
      · rw [if_neg h₂, if_neg h₂]
        by_cases h₃ : s.poolFree = 0
        · rw [if_pos h₃, if_pos h₃]
          unfold State.joinPoolWait
          dsimp only
          split <;> rfl
        · rw [if_neg h₃, if_neg h₃, he]
          simp only [State.admitRequest, State.toCard, State.modSlot, State.slot_setSlot_self, State.setSlot_setSlot]
          rfl

/-- A re-offer leaves the controller, the image, the policy and the outbound set as they were, and the time. -/
theorem State.reoffers_keeps (s : State) (i : SlotId) (h : Held) :
    ((s.reoffers i h).slot i).ctl = (s.slot i).ctl ∧ ((s.reoffers i h).slot i).store = (s.slot i).store
      ∧ ((s.reoffers i h).slot i).policy = (s.slot i).policy ∧ (s.reoffers i h).elapsed = s.elapsed := by
  unfold State.reoffers
  dsimp only
  split
  · simp only [State.slot_setSlot_self]; exact ⟨rfl, rfl, rfl, rfl⟩
  · split
    · simp only [State.reporting, State.slot_with_reports, State.slot_setSlot_self]; exact ⟨rfl, rfl, rfl, rfl⟩
    · split
      · exact ⟨rfl, rfl, rfl, rfl⟩
      · split
        · exact ⟨rfl, rfl, rfl, rfl⟩
        · simp only [State.slot_setSlot_self]; exact ⟨rfl, rfl, rfl, rfl⟩

theorem State.reoffersHold_keeps (s : State) (i : SlotId) :
    ((s.reoffersHold i).slot i).ctl = (s.slot i).ctl ∧ ((s.reoffersHold i).slot i).store = (s.slot i).store
      ∧ ((s.reoffersHold i).slot i).policy = (s.slot i).policy ∧ (s.reoffersHold i).elapsed = s.elapsed := by
  unfold State.reoffersHold
  split
  · split
    · exact s.reoffers_keeps i _
    · exact ⟨rfl, rfl, rfl, rfl⟩
  · exact ⟨rfl, rfl, rfl, rfl⟩

/-- R9, R11, R25: what stands in the hold is offered. -/
theorem State.offerHeld_eq_reoffersHold (s : State) (i : SlotId) : s.offerHeld i = s.reoffersHold i := by
  unfold State.reoffersHold
  cases hc : (s.slot i).chan.hold with
  | none => exact State.offerHeld_none hc
  | some h =>
    dsimp only
    split
    · rename_i hm
      exact State.offerHeld_eq hm.1 hm.2 hc
    · rename_i hm
      unfold State.offerHeld
      rw [hc]
      exact if_neg fun k => hm ((Slot.holdMayProceed_iff _).1 k)

/-- R9: a slot out of service, or with nothing in its hold, has nothing to offer. -/
theorem State.reoffersHold_none {s : State} {i : SlotId} (h : ¬ (s.slot i).serving ∨ (s.slot i).chan.hold = none) :
    s.reoffersHold i = s := by
  unfold State.reoffersHold
  split
  · rename_i hh
    exact if_neg fun k => h.elim (fun n => n k.1) fun n => by rw [n] at hh; exact nomatch hh
  · rfl

/-- A re-offer leaves the other slots. -/
theorem State.slot_reoffersHold_of_ne (s : State) {i j : SlotId} (h : j ≠ i) : (s.reoffersHold i).slot j = s.slot j := by
  unfold State.reoffersHold
  split
  · split
    · unfold State.reoffers
      dsimp only
      split
      · exact State.slot_setSlot_of_ne _ _ h
      · split
        · exact State.slot_setSlot_of_ne _ _ h
        · split
          · rfl
          · split
            · rfl
            · exact State.slot_setSlot_of_ne _ _ h
    · rfl
  · rfl

/-- R26: the offer of a freed entry along a list. -/
theorem State.offerAlong_eq (l : List SlotId) : ∀ s : State, State.offerAlong l s = State.offersAlong l s := by
  induction l with
  | nil => exact fun _ => rfl
  | cons j rest ih =>
    intro s
    unfold State.offerAlong State.offersAlong
    rw [State.offerHeld_eq_reoffersHold]
    split
    · dsimp only
      rw [ih]
    · rename_i hm
      have hs : s.reoffersHold j = s := by
        unfold State.reoffersHold
        split
        · exact if_neg fun k => hm ((Slot.holdMayProceed_iff _).2 k)
        · rfl
      rw [hs, if_neg (Nat.lt_irrefl _), ih]

/-- R33: an entry is freed. -/
theorem State.freeEntry_eq (s : State) (i : SlotId) (tag : Tag) :
    s.freeEntry i tag = s.frees i { s.slot i with entries := (s.slot i).entries.eraseP fun e => e.tag == tag } := by
  unfold State.freeEntry State.poolOffer State.quotaOffer State.frees
  rw [State.offerAlong_eq, State.offerHeld_eq_reoffersHold]
  rfl

/-- R9: an offer along a list leaves a slot that has nothing to offer. -/
theorem State.slot_offersAlong {i : SlotId} (l : List SlotId) :
    ∀ s : State, (¬ (s.slot i).serving ∨ (s.slot i).chan.hold = none) → (State.offersAlong l s).slot i = s.slot i := by
  induction l with
  | nil => exact fun _ _ => rfl
  | cons j rest ih =>
    intro s h
    have hj : (s.reoffersHold j).slot i = s.slot i := by
      by_cases hij : i = j
      · subst hij
        rw [State.reoffersHold_none h]
      · exact s.slot_reoffersHold_of_ne hij
    unfold State.offersAlong
    split
    · exact hj
    · rw [ih _ (by rw [hj]; exact h), hj]

/-- R33: a slot that has nothing to offer is, after it freed an entry, what it becomes. -/
theorem State.slot_frees {s : State} {i : SlotId} {left : Slot} (h : ¬ left.serving ∨ left.chan.hold = none) :
    (s.frees i left).slot i = left := by
  have ht : (State.offersAlong s.poolWait (s.setSlot i left)).slot i = left := by
    rw [State.slot_offersAlong _ _ (by rw [State.slot_setSlot_self]; exact h), State.slot_setSlot_self]
  unfold State.frees
  dsimp only
  split
  · exact ht
  · rw [State.reoffersHold_none (by rw [ht]; exact h), ht]

/-- A re-offer leaves the scorer and every slot's controller. -/
theorem State.reoffersHold_spares (s : State) (i j : SlotId) :
    (s.reoffersHold i).scorer = s.scorer ∧ (s.reoffersHold i).elapsed = s.elapsed
      ∧ ((s.reoffersHold i).slot j).ctl = (s.slot j).ctl := by
  refine ⟨?_, (s.reoffersHold_keeps i).2.2.2, ?_⟩
  · unfold State.reoffersHold State.reoffers State.reporting
    split
    · dsimp only
      repeat' split
      all_goals rfl
    · rfl
  · by_cases h : j = i
    · subst h
      exact (s.reoffersHold_keeps j).1
    · rw [s.slot_reoffersHold_of_ne h]

/-- R33: what becomes of a freed entry leaves the scorer, the time and every slot's controller. -/
theorem State.frees_spares (s : State) (i : SlotId) (left : Slot) (j : SlotId) :
    (s.frees i left).scorer = s.scorer ∧ (s.frees i left).elapsed = s.elapsed
      ∧ ((s.frees i left).slot j).ctl = ((s.setSlot i left).slot j).ctl := by
  have ho : ∀ (l : List SlotId) (t : State), (State.offersAlong l t).scorer = t.scorer
      ∧ (State.offersAlong l t).elapsed = t.elapsed ∧ ((State.offersAlong l t).slot j).ctl = (t.slot j).ctl := by
    intro l
    induction l with
    | nil => exact fun _ => ⟨rfl, rfl, rfl⟩
    | cons k rest ih =>
      intro t
      obtain ⟨h₁, h₂, h₃⟩ := t.reoffersHold_spares k j
      unfold State.offersAlong
      split
      · exact ⟨h₁, h₂, h₃⟩
      · obtain ⟨k₁, k₂, k₃⟩ := ih (t.reoffersHold k)
        exact ⟨k₁.trans h₁, k₂.trans h₂, k₃.trans h₃⟩
  obtain ⟨h₁, h₂, h₃⟩ := ho s.poolWait (s.setSlot i left)
  unfold State.frees
  dsimp only
  split
  · exact ⟨h₁, h₂, h₃⟩
  · obtain ⟨k₁, k₂, k₃⟩ := (State.offersAlong s.poolWait (s.setSlot i left)).reoffersHold_spares i j
    exact ⟨k₁.trans h₁, k₂.trans h₂, k₃.trans h₃⟩

/-- A slot set before it frees an entry is what it becomes. -/
theorem State.frees_setSlot (s : State) (i : SlotId) (x left : Slot) : (s.setSlot i x).frees i left = s.frees i left := by
  unfold State.frees
  rw [State.setSlot_setSlot]
  rfl

/-- R33: an entry freed where no other slot may take it is kept from none (R26). -/
theorem State.frees_unclaimed {s : State} {i : SlotId} {left : Slot} (hu : s.unclaimed i)
    (h : ¬ left.serving ∨ left.chan.hold = none) : s.frees i left = s.setSlot i left := by
  have ho : ∀ (l : List SlotId) (t : State), t.slot i = left → (∀ j, j ≠ i → t.slot j = s.slot j) →
      (∀ j ∈ l, j ≠ i → ¬ ((s.slot j).serving ∧ (s.slot j).chan.linkUp = true)) → State.offersAlong l t = t := by
    intro l
    induction l with
    | nil => exact fun _ _ _ _ => rfl
    | cons j rest ih =>
      intro t hi hj hl
      have hr : t.reoffersHold j = t := by
        by_cases hij : j = i
        · subst hij
          exact State.reoffersHold_none (by rw [hi]; exact h)
        · unfold State.reoffersHold
          split
          · exact if_neg fun k => hl j (List.mem_cons_self ..) hij (by rw [← hj j hij]; exact k)
          · rfl
      unfold State.offersAlong
      rw [hr, if_neg (Nat.lt_irrefl _)]
      exact ih t hi hj fun k hk => hl k (List.mem_cons_of_mem _ hk)
  unfold State.frees
  dsimp only
  rw [ho _ _ (State.slot_setSlot_self ..) (fun j hj => State.slot_setSlot_of_ne _ _ hj) hu]
  split
  · rfl
  · exact State.reoffersHold_none (by rw [State.slot_setSlot_self]; exact h)

end Sys2Proof.Machine
end

