-- ==== Sys2Proof/Laws/Outcomes.lean ====
section
/-! SUPPORT. Fences, sweeps, the exit from FENCING, weights, ONLINE, failures, abandonments and the return to LIVE as the closed forms of
Safety.lean. -/

namespace Sys2Proof.Machine

/-! ### The sweep and the exit from FENCING -/

/-- R34: the answer of an entry at a sweep or an expiry. -/
theorem State.answerEntry_eq (s : State) (i : SlotId) (e : Entry) :
    s.answerEntry i e =
      s.setSlot i ((s.slot i).tellsHost (.completion (fillCompletion (s.slot i).policy.fill e.tag e.fillDwords))) := by
  unfold State.answerEntry Entry.fillDwords
  rw [FillMode.answer_eq]
  cases e.kind <;> rfl

theorem State.sweepLoop_eq (i : SlotId) (l : List Entry) : ∀ s : State, ¬ (s.slot i).serving → (s.slot i).entries = l →
    State.sweepLoop i l s = l.foldl (fun t e => t.frees i ((t.slot i).swept e)) s := by
  induction l with
  | nil => exact fun _ _ _ => rfl
  | cons e rest ih =>
    intro s hs he
    have hf : (s.answerEntry i e).freeEntry i e.tag = s.frees i ((s.slot i).swept e) := by
      rw [State.answerEntry_eq, State.freeEntry_eq, State.frees_setSlot, State.slot_setSlot_self]
      simp only [Slot.tellsHost, Slot.swept, he, List.eraseP_cons, beq_self_eq_true, List.tail_cons, cond_true]
    have hi : (s.frees i ((s.slot i).swept e)).slot i = (s.slot i).swept e := State.slot_frees (.inl hs)
    unfold State.sweepLoop
    rw [hf, List.foldl_cons]
    exact ih _ (by rw [hi]; exact hs) (by rw [hi, Slot.swept, he]; rfl)

/-- R37: the sweep of a slot out of service. -/
theorem State.sweep_eq {s : State} {i : SlotId} (hs : ¬ (s.slot i).serving) : s.sweep i = s.sweeps i :=
  State.sweepLoop_eq i _ s hs rfl

/-- R37: the slot with every entry answered by fill mode, oldest first, and gone, entry by entry. -/
theorem Slot.foldl_swept (l : List Entry) : ∀ sl : Slot, sl.entries = l →
    l.foldl Slot.swept sl =
      { sl with
        entries := []
        chan.hostOut := sl.chan.hostOut ++ l.map fun e =>
          HostOut.completion (fillCompletion sl.policy.fill e.tag e.fillDwords) } := by
  induction l with
  | nil => intro sl h; rw [List.foldl_nil, List.map_nil, List.append_nil, ← h]
  | cons e rest ih =>
    intro sl h
    rw [List.foldl_cons, ih _ (by rw [Slot.swept, h]; rfl)]
    simp [Slot.swept, Slot.tellsHost]

theorem State.slot_sweeps_foldl {i : SlotId} (l : List Entry) : ∀ s : State, ¬ (s.slot i).serving →
    (l.foldl (fun t e => t.frees i ((t.slot i).swept e)) s).slot i = l.foldl Slot.swept (s.slot i) := by
  induction l with
  | nil => exact fun _ _ => rfl
  | cons e rest ih =>
    intro s hs
    have hi : (s.frees i ((s.slot i).swept e)).slot i = (s.slot i).swept e := State.slot_frees (.inl hs)
    rw [List.foldl_cons, ih _ (by rw [hi]; exact hs), hi]
    rfl

/-- R37: a slot out of service after its sweep: nothing pending, every entry answered. -/
theorem State.slot_sweeps {s : State} {i : SlotId} (hs : ¬ (s.slot i).serving) :
    (s.sweeps i).slot i =
      { s.slot i with
        entries := []
        chan.hostOut := (s.slot i).chan.hostOut ++ (s.slot i).entries.map fun e =>
          HostOut.completion (fillCompletion (s.slot i).policy.fill e.tag e.fillDwords) } := by
  rw [State.sweeps, State.slot_sweeps_foldl _ _ hs, Slot.foldl_swept _ _ rfl]

theorem State.sweeps_foldl_unclaimed {i : SlotId} (l : List Entry) : ∀ s : State, ¬ (s.slot i).serving → s.unclaimed i →
    l.foldl (fun t e => t.frees i ((t.slot i).swept e)) s = s.setSlot i (l.foldl Slot.swept (s.slot i)) := by
  induction l with
  | nil => exact fun s _ _ => (s.setSlot_slot i).symm
  | cons e rest ih =>
    intro s hs hu
    have hi : s.frees i ((s.slot i).swept e) = s.setSlot i ((s.slot i).swept e) := State.frees_unclaimed hu (.inl hs)
    rw [List.foldl_cons, hi, ih, State.slot_setSlot_self, State.setSlot_setSlot]
    · rfl
    · rw [State.slot_setSlot_self]
      exact hs
    · intro j hj hn
      rw [State.slot_setSlot_of_ne _ _ hn]
      exact hu j hj hn

/-- R37: the sweep of a slot out of service, where no other slot may take what it frees. -/
theorem State.sweeps_unclaimed {s : State} {i : SlotId} (hs : ¬ (s.slot i).serving) (hu : s.unclaimed i) :
    s.sweeps i = s.setSlot i
      { s.slot i with
        entries := []
        chan.hostOut := (s.slot i).chan.hostOut ++ (s.slot i).entries.map fun e =>
          HostOut.completion (fillCompletion (s.slot i).policy.fill e.tag e.fillDwords) } := by
  rw [State.sweeps, State.sweeps_foldl_unclaimed _ _ hs hu, Slot.foldl_swept _ _ rfl]

/-- R40: the entries of a slot with nothing in its hold, removed at an upstream reset. -/
theorem State.discardLoop_eq (i : SlotId) (l : List Entry) : ∀ s : State, (s.slot i).chan.hold = none →
    (s.slot i).entries = l →
    State.discardLoop i l s = l.foldl (fun t _ => t.frees i { t.slot i with entries := (t.slot i).entries.tail }) s := by
  induction l with
  | nil => exact fun _ _ _ => rfl
  | cons e rest ih =>
    intro s hs he
    have hf : s.freeEntry i e.tag = s.frees i { s.slot i with entries := (s.slot i).entries.tail } := by
      rw [State.freeEntry_eq, he]
      simp only [List.eraseP_cons, beq_self_eq_true, List.tail_cons, cond_true]
    have hi : (s.frees i { s.slot i with entries := (s.slot i).entries.tail }).slot i =
        { s.slot i with entries := (s.slot i).entries.tail } := State.slot_frees (.inr hs)
    unfold State.discardLoop
    rw [hf, List.foldl_cons]
    exact ih _ (by rw [hi]; exact hs) (by rw [hi, he]; rfl)

/-- R40. -/
theorem State.discardEntries_eq {s : State} {i : SlotId} (hs : (s.slot i).chan.hold = none) :
    s.discardEntries i = s.discards i := State.discardLoop_eq i _ s hs rfl

/-- R40: a slot with nothing in its hold after the removal of its entries. -/
theorem State.slot_discards {s : State} {i : SlotId} (hs : (s.slot i).chan.hold = none) :
    (s.discards i).slot i = { s.slot i with entries := [] } := by
  have h : ∀ (l : List Entry) (t : State), (t.slot i).chan.hold = none → (t.slot i).entries = l →
      (l.foldl (fun t _ => t.frees i { t.slot i with entries := (t.slot i).entries.tail }) t).slot i =
        { t.slot i with entries := [] } := by
    intro l
    induction l with
    | nil => intro t _ he; rw [List.foldl_nil, ← he]
    | cons e rest ih =>
      intro t ht he
      have hi : (t.frees i { t.slot i with entries := (t.slot i).entries.tail }).slot i =
          { t.slot i with entries := (t.slot i).entries.tail } := State.slot_frees (.inr ht)
      rw [List.foldl_cons, ih _ (by rw [hi]; exact ht) (by rw [hi, he]; rfl), hi]
  exact h _ s hs rfl

/-- A change of the slot after a report is one before it. -/
theorem State.reporting_modSlot (s : State) (i : SlotId) (f : Slot → Slot) (r : Report) :
    (s.reporting r).modSlot i f = (s.modSlot i f).reporting r := rfl

/-- A change of the controller after a move, which leaves state and power-cut mark and what a power-off writes, is one before it. -/
theorem State.modSlot_moved_ctl (s : State) (i : SlotId) (x : Slot) (c : Controller → Controller) {f : Slot → Slot}
    (hf : ∀ sl : Slot, sl.policy = x.policy → f sl = { sl with ctl := c sl.ctl })
    (hc : ∀ (a : Controller) now m, c (a.powerOffAt now m) = (c a).powerOffAt now m)
    (h₁ : (c x.ctl).state = x.ctl.state) (h₂ : (c x.ctl).powerCut = x.ctl.powerCut) :
    (s.moved i x).modSlot i f = s.moved i { x with ctl := c x.ctl } := by
  have hp : ({ x with ctl := c x.ctl } : Slot).pwren = x.pwren := Slot.pwren_congr rfl h₁ h₂
  have hb : ({ x with ctl := c x.ctl } : Slot).blinks = x.blinks := Slot.blinks_congr rfl rfl h₁ h₂
  refine s.modSlot_moved i x _ f hp ?_
  rw [hf _ (State.moved_policy _ _ _), State.moved_slot, State.moved_slot, hp, hb]
  dsimp only
  split
  · rw [hc]
  · rfl

/-- R78, R80, R81: entry to ISOLATED. -/
theorem State.enterIsolated_eq (s : State) (i : SlotId) :
    s.enterIsolated i = s.goesIsolated i := by
  have ha : (s.drive i fun sl => { sl.moveTo .isolated with ctl.isoPolicy := some sl.policy.policy }).reportState i
      ((s.drive i fun sl => { sl.moveTo .isolated with ctl.isoPolicy := some sl.policy.policy }).slot i).ctl.reason none =
      s.arrives i { (s.slot i).ctl.into .isolated with isoPolicy := some (s.slot i).policy.policy } none := by
    rw [State.reportState_drive]
    · rw [State.drive_eq_moved, State.moved_reason]
      simp only [Slot.moveTo_eq]
      rfl
    · simp only [Slot.moveTo_eq]
      rfl
  have hpol : ∀ c v, ((s.arrives i c v).slot i).policy = (s.slot i).policy := by
    intro c v; unfold State.arrives State.reporting; simp
  have hst : ∀ c v, ((s.arrives i c v).slot i).ctl.state = c.state := by
    intro c v; unfold State.arrives State.reporting; rw [State.slot_with_reports, State.moved_state]
  unfold State.enterIsolated State.goesIsolated
  dsimp only
  rw [ha, hpol]
  cases hc : (s.slot i).policy.policy
  · dsimp only
    unfold State.firstAttempt
    rw [State.startRecovery_eq]
    · rw [hpol]
    · rw [hst]
      exact ⟨nofun, nofun⟩
  · dsimp only
    unfold State.arrives
    rw [State.reporting_modSlot, s.modSlot_moved_ctl i _ (fun c =>
      { c with decisionTimer := .running (s.now + BitVec.ofNat 32 (1000 * (s.slot i).policy.decisionTime)) })]
    · intro sl hsl
      rw [hsl]
      rfl
    · exact fun _ _ _ => rfl
    · rfl
    · rfl
  · rfl

/-- R66: the exit from FENCING. -/
theorem State.leaveFencing_eq (s : State) (i : SlotId) : s.leaveFencing i = s.leavesFencing i := by
  unfold State.leaveFencing State.leavesFencing
  rw [State.enterDischarging_eq, State.enterIsolated_eq]
  cases (s.slot i).ctl.disposition with
  | none => rfl
  | some d => cases d <;> rfl

/-- R62: entry to FENCING, before an end of the drain. -/
theorem State.enterFencing_eq (s : State) (i : SlotId) (r : Reason) (d : Disposition) :
    (fun t : State => t.reportState i (some r) (some (t.slot i).ctl.score))
      (((s.drive i fun sl =>
        { sl.moveTo .fencing with
          ctl.reason := some r
          ctl.disposition := some d
          ctl.powerCut := sl.ctl.powerCut || r = .overcurrent
          ctl.drainTimer := some (s.after (if r = .removed then 0 else (s.slot i).policy.drain))
          outbound := sl.outbound.allGhosts }).absorbHeld i).blockHeld i) = s.goesFencing i r d := by
  have hd : (s.drive i fun sl =>
      { sl.moveTo .fencing with
        ctl.reason := some r
        ctl.disposition := some d
        ctl.powerCut := sl.ctl.powerCut || r = .overcurrent
        ctl.drainTimer := some (s.after (if r = .removed then 0 else (s.slot i).policy.drain))
        outbound := sl.outbound.allGhosts }) =
      s.moved i
        { s.slot i with
          chan.gateOpen := false
          ctl :=
            { (s.slot i).ctl.into .fencing with
              reason := some r, disposition := some d
              powerCut := (s.slot i).ctl.powerCut || decide (r = .overcurrent)
              drainTimer := some (s.now + BitVec.ofNat 32 (if r = .removed then 0 else (s.slot i).policy.drain)) }
          outbound := { tags := (s.slot i).outbound.tags.map fun t => { t with ghost := true }, deadline := none } } := by
    simp only [Slot.moveTo_eq, State.drive_eq_moved]
    rfl
  unfold State.goesFencing
  dsimp only
  rw [hd, State.absorbHeld_eq, State.blockHeld_eq]
  generalize hm : s.moved i _ = m
  have hk := (m.absorbsHold_spares i).trans ((m.absorbsHold i).blocksHold_spares i)
  have hsc : (m.slot i).ctl.score = (s.slot i).ctl.score := by rw [← hm, State.moved_score]; rfl
  have hst : (m.slot i).ctl.state = .fencing := by rw [← hm, State.moved_state]; rfl
  have hlr : (m.slot i).ctl.lastReported = (s.slot i).ctl.lastReported := by rw [← hm, State.moved_lastReported]; rfl
  have hel : m.elapsed = s.elapsed := by rw [← hm]; rfl
  rw [State.reportState_eq, hk.ctl, hsc, hst]
  unfold State.stateNote
  rw [hk.ctl, hk.elapsed, hlr, hel]
  simp only [State.modSlot, hk.ctl, hst, hsc]
  rfl

/-- What an entry to FENCING leaves of the slot's list, and the state it makes. -/
theorem State.goesFencing_spares (s : State) (i : SlotId) (r : Reason) (d : Disposition) :
    ((s.goesFencing i r d).slot i).entries = (s.slot i).entries
      ∧ ((s.goesFencing i r d).slot i).ctl.state = .fencing := by
  unfold State.goesFencing
  dsimp only
  generalize hm : s.moved i _ = m
  have hk := (m.absorbsHold_spares i).trans ((m.absorbsHold i).blocksHold_spares i)
  have hst : (m.slot i).ctl.state = .fencing := by rw [← hm, State.moved_state]; rfl
  have hen : (m.slot i).entries = (s.slot i).entries := by rw [← hm, State.moved_entries]
  refine ⟨?_, ?_⟩
  · simp only [State.reporting, State.slot_with_reports, State.slot_setSlot_self]
    exact hk.entries.trans hen
  · simp only [State.reporting, State.slot_with_reports, State.slot_setSlot_self]
    rw [hk.ctl]
    exact hst

/-- R54, R62, R63: a fence. -/
theorem State.fence_eq {s : State} {i : SlotId} {r : Reason} {d : Disposition} (hs : (s.slot i).serving) :
    s.fence i r d = s.fences i r d := by
  obtain ⟨he, hst⟩ := s.goesFencing_spares i r d
  unfold State.fence State.when
  rw [if_pos (Slot.inService_of_serving hs)]
  have hf := s.enterFencing_eq i r d
  dsimp only at hf ⊢
  rw [hf]
  have hcond : ((decide ((if r = .removed then 0 else (s.slot i).policy.drain) = 0)
      || ((s.goesFencing i r d).slot i).entries.isEmpty) = true) ↔
      ((s.slot i).entries = [] ∨ r = .removed ∨ (s.slot i).policy.drain = 0) := by
    rw [he]
    by_cases hr : r = .removed <;> simp [hr, or_comm]
  unfold State.fences
  dsimp only
  by_cases hx : (s.slot i).entries = [] ∨ r = .removed ∨ (s.slot i).policy.drain = 0
  · rw [if_pos (hcond.2 hx), if_pos hx]
    unfold State.endDrain
    rw [State.sweep_eq (by rw [Slot.serving, hst]; exact nofun), State.leaveFencing_eq]
  · rw [if_neg (fun h => hx (hcond.1 h)), if_neg hx]

/-! ### Weights and their evaluation -/

/-- R50, R51: entry to SUSPECT, or the return to ONLINE. -/
theorem State.enterService_eq (s : State) (i : SlotId) {st : SlotState} (h : st.isOpen = true) :
    s.enterService i st = s.serves i st := by
  unfold State.enterService State.serves
  dsimp only
  rw [State.reportState_drive]
  · rw [State.drive_eq_moved, State.moved_score]
    simp only [Slot.moveTo_eq, h]
    rfl
  · simp only [Slot.moveTo_eq]
    rfl

/-- R50, R51: the evaluation of a slot. -/
theorem State.evaluate_eq (s : State) (i : SlotId) (why : Reason) : s.evaluate i why = s.evaluates i why := by
  unfold State.evaluate State.verdict Scorer.verdict State.evaluates
  dsimp only
  by_cases hs : (s.slot i).serving
  · rw [if_neg (by simp [Slot.isOpen_of_serving hs]), if_neg (not_not.2 hs)]
    by_cases hf : s.scorer.fence ≤ (s.slot i).ctl.score
    · rw [if_pos hf, if_pos hf]
      dsimp only
      rw [State.report_eq, State.fence_eq]
      · rfl
      · exact hs
    · rw [if_neg hf, if_neg hf]
      by_cases hw : (s.slot i).ctl.state = .online ∧ s.scorer.warn ≤ (s.slot i).ctl.score
      · rw [if_pos (by simp [hw.1, hw.2]), if_pos hw]
        exact s.enterService_eq i rfl
      · rw [if_neg (by simpa using hw), if_neg hw]
        by_cases hc : (s.slot i).ctl.state = .suspect ∧ (s.slot i).ctl.score < s.scorer.warn / 2
        · rw [if_pos (by simp [hc.1, hc.2]), if_pos hc]
          exact s.enterService_eq i rfl
        · rw [if_neg (by simpa using hc), if_neg hc]
  · rw [if_pos (by simp [Slot.isOpen_of_not_serving hs]), if_pos hs]

/-- R46, R52: a card-fault event. -/
theorem State.cardFault_eq (s : State) (i : SlotId) (w : Nat) (why : Reason) : s.cardFault i w why = s.weighs i w why := by
  unfold State.cardFault State.when State.weighs
  dsimp only
  by_cases hs : (s.slot i).serving ∧ w ≠ 0
  · rw [if_pos (by simp [Slot.inService_of_serving hs.1, hs.2]), if_pos hs]
    exact State.evaluate_eq ..
  · rw [if_neg (by simpa [Slot.inService_iff] using hs), if_neg hs]

/-! ### ONLINE -/

/-- A STATE report and a RESTORED report as reports offered (R104, R197). -/
theorem State.reportState_reporting (s : State) (i : SlotId) (r : Option Reason) (v : Option Nat) :
    s.reportState i r v =
      (s.modSlot i fun sl => { sl with ctl.lastReported := sl.ctl.state }).reporting
        (s.stateNote i (s.slot i).ctl.state r v) := s.reportState_eq i r v

theorem State.reportRestored_reporting (s : State) (i : SlotId) (n : Nat) (b : Bool) :
    s.reportRestored i n b = s.reporting { s.note .restored i none (some n) with partialRestore := b } := by
  rw [State.reportRestored, State.offerReport_eq]
  rfl

theorem Outbound.hasGhost_iff (o : Outbound) : o.hasGhost = true ↔ ∃ g ∈ o.tags, g.ghost = true := by
  simp [Outbound.hasGhost]

/-- R104: entry to ONLINE. -/
theorem State.enterOnline_eq (s : State) (i : SlotId) : s.enterOnline i = s.goesOnline i := by
  have ho : (s.drive i fun sl => sl.moveTo .online).offerHeld i =
      (s.moved i { s.slot i with chan.gateOpen := true, ctl := (s.slot i).ctl.into .online }).reoffersHold i := by
    rw [State.offerHeld_eq_reoffersHold, State.drive_eq_moved, Slot.moveTo_eq]
    rfl
  have hk : ∀ t : State, t = (s.moved i { s.slot i with chan.gateOpen := true, ctl := (s.slot i).ctl.into .online }).reoffersHold i →
      (t.slot i).ctl.reason = (s.slot i).ctl.reason ∧ (t.slot i).ctl.attempts = (s.slot i).ctl.attempts
        ∧ (t.slot i).ctl.origin = (s.slot i).ctl.origin ∧ (t.slot i).ctl.lastReported = (s.slot i).ctl.lastReported
        ∧ (t.slot i).ctl.state = .online ∧ (t.slot i).store = (s.slot i).store ∧ t.elapsed = s.elapsed
        ∧ (t.slot i).policy = (s.slot i).policy := by
    intro t ht
    subst ht
    obtain ⟨q₁, q₂, q₃, q₄⟩ := State.reoffersHold_keeps
      (s.moved i { s.slot i with chan.gateOpen := true, ctl := (s.slot i).ctl.into .online }) i
    refine ⟨?_, ?_, ?_, ?_, ?_, ?_, q₄, ?_⟩
    · rw [q₁, State.moved_reason]; rfl
    · rw [q₁, State.moved_attempts]; rfl
    · rw [q₁, State.moved_origin]; rfl
    · rw [q₁, State.moved_lastReported]; rfl
    · rw [q₁, State.moved_state]; rfl
    · rw [q₂, State.moved_store]
    · rw [q₃, State.moved_policy]
  unfold State.enterOnline State.goesOnline
  dsimp only
  rw [ho]
  generalize ht : (s.moved i { s.slot i with chan.gateOpen := true, ctl := (s.slot i).ctl.into .online }).reoffersHold i = t
  obtain ⟨k₁, k₂, k₃, k₄, k₅, k₆, k₇, k₈⟩ := hk t ht.symm
  rw [k₁, k₂, k₃, k₆, State.reportState_reporting]
  simp only [Outbound.hasGhost_iff, Bool.or_eq_true, decide_eq_true_eq]
  have hn : t.now = s.now := by rw [State.now, k₇]; rfl
  have hm : ∀ f : Slot → Slot, (f (t.slot i)).ctl.lastReported = (s.slot i).ctl.lastReported →
      ∀ r v, (t.modSlot i f).stateNote i .online r v = s.stateNote i .online r v := by
    intro f hf r v
    unfold State.stateNote
    rw [State.slot_modSlot_self, hf, show (t.modSlot i f).elapsed = s.elapsed from k₇]
  by_cases hr : (s.slot i).ctl.origin = some .upstream ∨ (s.slot i).ctl.origin = some .bringUp
  · have hr' : ¬ ((s.slot i).ctl.origin ≠ some .upstream ∧ (s.slot i).ctl.origin ≠ some .bringUp) := by
      intro h; rcases hr with hr | hr
      · exact h.1 hr
      · exact h.2 hr
    rw [if_pos hr, if_neg hr', if_neg hr', ← k₆]
    rw [State.slot_modSlot_self]
    dsimp only
    rw [k₅, hm _ k₄]
    simp only [State.modSlot, State.slot_setSlot_self, State.setSlot_setSlot, State.after, hn, k₁, k₅, k₈]
  · have hr' : (s.slot i).ctl.origin ≠ some .upstream ∧ (s.slot i).ctl.origin ≠ some .bringUp := not_or.1 hr
    rw [if_neg hr, if_pos hr', if_pos hr']
    rw [State.slot_modSlot_self]
    dsimp only
    have hw : ∀ (u : State) (n : Report), u.elapsed = s.elapsed → (u.reporting n).note .restored i none
        (some (s.slot i).store.replayed) = s.note .restored i none (some (s.slot i).store.replayed) := by
      intro u n hu
      unfold State.note
      rw [show (u.reporting n).elapsed = s.elapsed from hu]
    rw [k₅, hm _ k₄, State.reportRestored_reporting, hw, State.reporting_modSlot, State.reporting_modSlot]
    · simp only [State.modSlot, State.slot_setSlot_self, State.setSlot_setSlot, State.after, hn, k₁, k₅,
        k₆, k₈]
    · exact k₇

/-! ### Failures and abandonments -/

/-- R89, R91: what the state of an attempt gives back. -/
theorem State.leaveStage_eq (s : State) (i : SlotId) : s.leaveStage i = s.stageLeft i := by
  unfold State.leaveStage State.stageLeft
  cases (s.slot i).ctl.state <;> rfl

/-- A reason recorded before an entry to QUARANTINED is replaced there (R84). -/
theorem State.goesQuarantined_reason (s : State) (i : SlotId) (r q : Reason) :
    (s.setSlot i { s.slot i with ctl.reason := some r }).goesQuarantined i q = s.goesQuarantined i q := by
  have h : (s.setSlot i { s.slot i with ctl.reason := some r }).slot i = { s.slot i with ctl.reason := some r } :=
    State.slot_setSlot_self _ _ _
  unfold State.goesQuarantined State.stateNote
  simp only [h, s.ctl_moved i { (s.slot i).ctl with reason := some r } _ rfl rfl, State.now_setSlot, State.setSlot_elapsed]
  rfl

/-- R89: an attempt failure. -/
theorem State.attemptFailure_eq (s : State) (i : SlotId) (r : Reason) : s.attemptFailure i r = s.failsAttempt i r := by
  unfold State.attemptFailure State.failsAttempt
  rw [State.leaveStage_eq]
  generalize s.stageLeft i = t
  have hr : (t.modSlot i fun sl => { sl with ctl.reason := some r }).report .attempt i (some r)
      (some (t.slot i).ctl.attempts) =
      (t.reporting (t.note .attempt i (some r) (some (t.slot i).ctl.attempts))).setSlot i
        { t.slot i with ctl.reason := some r } := by
    rw [State.report_eq]
    rfl
  dsimp only
  rw [show (((t.modSlot i fun sl => { sl with ctl.reason := some r }).slot i).ctl.attempts) = (t.slot i).ctl.attempts by
    rw [State.slot_modSlot_self], hr]
  generalize hu : t.reporting (t.note .attempt i (some r) (some (t.slot i).ctl.attempts)) = u
  have hs : t.slot i = u.slot i := by rw [← hu]; rfl
  rw [hs]
  rw [State.slot_setSlot_self, State.modSlot, State.slot_setSlot_self, State.setSlot_setSlot]
  split
  · exact u.enterDischarging_ctl
      { (u.slot i).ctl with reason := some r, attempts := (u.slot i).ctl.attempts + 1, resetKind := some .cold } .bringUp rfl rfl
  · rw [State.enterQuarantined_eq, State.goesQuarantined_reason]

/-- R145: a departure. -/
theorem State.depart_eq (s : State) (i : SlotId) : s.depart i = s.queueLeft i := by
  unfold State.depart State.queueLeft
  cases s.arbiter.queue with
  | nil => rfl
  | cons p rest =>
    simp only [List.head?_cons, Option.any_some, Option.map_some, beq_iff_eq, Option.some.injEq]
    rfl

/-- R91, R96: an abandonment. -/
theorem State.abandonAttempt_eq (s : State) (i : SlotId) (r : Reason) : s.abandonAttempt i r = s.abandons i r := by
  unfold State.abandonAttempt State.abandons State.abandon
  by_cases hd : (s.slot i).ctl.state = .discharging
  · by_cases ht : (s.slot i).ctl.target = some .off
    · rw [if_pos (by simp [hd, ht]), if_pos hd, if_pos ht]
    · rw [if_neg (by simp [ht]), if_pos hd, if_pos hd, if_neg ht]
      rfl
  · simp only [hd, decide_false, Bool.false_and, Bool.false_eq_true, if_false, State.depart_eq, State.leaveStage_eq]
    exact State.enterDischarging_ctl
      { ((if (s.slot i).ctl.state = .powerWait then s.queueLeft i else s.stageLeft i).slot i).ctl with
        reason := some r, resetKind := none } .off rfl rfl

/-! ### Pins -/

/-- R177, R81: the forced return to LIVE. -/
theorem State.forceLive_eq (s : State) (i : SlotId) : s.forceLive i = s.returnsToLive i := by
  unfold State.forceLive State.returnsToLive State.setPinMode State.when
  dsimp only
  split
  · rfl
  · simp only [State.drive_eq_moved, State.moved_state, State.moved_isoPolicy, Bool.and_eq_true, decide_eq_true_eq]
    split
    · rw [s.modSlot_moved_ctl i _ (fun c =>
        { c with decisionTimer := .running (s.now + BitVec.ofNat 32 (1000 * (s.slot i).policy.decisionTime)) })]
      · intro sl hsl
        rw [hsl]
        rfl
      · exact fun _ _ _ => rfl
      · rfl
      · rfl
    · rfl

end Sys2Proof.Machine
end

