-- ==== Sys2Proof/Laws/PerInstr.lean ====
section
/-! SUPPORT. One lemma per command: the payload of a well-formed request fits a frame (R180: 1 to 60 bytes). -/

namespace Sys2Proof.Laws

theorem length_leBytes (n v : Nat) : (leBytes n v).length = n := by
  induction n generalizing v with
  | zero => rfl
  | succ n ih => simp [leBytes, ih]

theorem length_pageBytes (ps : List (BitVec 40 × BitVec 40)) : (pageBytes ps).length = 10 * ps.length := by
  induction ps with
  | nil => rfl
  | cons p ps ih => simp [pageBytes, length_leBytes, ih]; omega

theorem length_boundBytes (rs : List (BitVec 16 × BitVec 16)) : (boundBytes rs).length = 4 * rs.length := by
  induction rs with
  | nil => rfl
  | cons r rs ih => simp [boundBytes, length_leBytes, ih]; omega

/-- The payload of the request a well-formed command stands for has 2 to 60 bytes (R180, section 10.3). -/
def PayloadFits.Statement (i : Instr) : Prop :=
  ∀ sb r, i.request = some (sb, r) → i.wf = true →
    2 ≤ (encodeRequest sb r).length ∧ (encodeRequest sb r).length ≤ 60

/-- An event stands for no request. -/
theorem payloadFits_of_event {i : Instr} (h : i.request = none) : PayloadFits.Statement i := by
  intro sb r h'
  rw [h] at h'
  cases h'

/-- A request whose fields have at most 58 bytes fits. -/
theorem payloadFits_of_fields {i : Instr} {sb : Byte} {r : BmcRequest} (h : i.request = some (sb, r))
    (k : i.wf = true → r.fieldBytes.length ≤ 58) : PayloadFits.Statement i := by
  intro sb' r' h' hw
  rw [h] at h'
  cases h'
  have := k hw
  simp only [encodeRequest, List.length_cons]
  omega

theorem PayloadFits.hostRequest (slot : SlotId) (r : Request) : PayloadFits.Statement (.hostRequest slot r) :=
  payloadFits_of_event rfl

theorem PayloadFits.holdExpiry (slot : SlotId) : PayloadFits.Statement (.holdExpiry slot) :=
  payloadFits_of_event rfl

theorem PayloadFits.cardCompletion (slot : SlotId) (dest : Addressee) (c : Completion) : PayloadFits.Statement (.cardCompletion slot dest c) :=
  payloadFits_of_event rfl

theorem PayloadFits.entryExpiry (slot : SlotId) (tag : Tag) : PayloadFits.Statement (.entryExpiry slot tag) :=
  payloadFits_of_event rfl

theorem PayloadFits.cardRequest (slot : SlotId) (r : Request) : PayloadFits.Statement (.cardRequest slot r) :=
  payloadFits_of_event rfl

theorem PayloadFits.hostCompletion (slot : SlotId) (c : Completion) : PayloadFits.Statement (.hostCompletion slot c) :=
  payloadFits_of_event rfl

theorem PayloadFits.ghostDeadline (slot : SlotId) : PayloadFits.Statement (.ghostDeadline slot) :=
  payloadFits_of_event rfl

theorem PayloadFits.linkDown (slot : SlotId) : PayloadFits.Statement (.linkDown slot) :=
  payloadFits_of_event rfl

theorem PayloadFits.linkUp (slot : SlotId) : PayloadFits.Statement (.linkUp slot) :=
  payloadFits_of_event rfl

theorem PayloadFits.linkGraceExpiry (slot : SlotId) : PayloadFits.Statement (.linkGraceExpiry slot) :=
  payloadFits_of_event rfl

theorem PayloadFits.upstreamReset (slot : SlotId) : PayloadFits.Statement (.upstreamReset slot) :=
  payloadFits_of_event rfl

theorem PayloadFits.upstreamRelease (slot : SlotId) : PayloadFits.Statement (.upstreamRelease slot) :=
  payloadFits_of_event rfl

theorem PayloadFits.decayEvent : PayloadFits.Statement (.decayEvent) :=
  payloadFits_of_event rfl

theorem PayloadFits.calertAssertion (slot : SlotId) : PayloadFits.Statement (.calertAssertion slot) :=
  payloadFits_of_event rfl

theorem PayloadFits.calertRelease (slot : SlotId) : PayloadFits.Statement (.calertRelease slot) :=
  payloadFits_of_event rfl

theorem PayloadFits.drainExpiry (slot : SlotId) : PayloadFits.Statement (.drainExpiry slot) :=
  payloadFits_of_event rfl

theorem PayloadFits.decisionExpiry (slot : SlotId) : PayloadFits.Statement (.decisionExpiry slot) :=
  payloadFits_of_event rfl

theorem PayloadFits.minOffExpiry (slot : SlotId) : PayloadFits.Statement (.minOffExpiry slot) :=
  payloadFits_of_event rfl

theorem PayloadFits.dischargeTimeout (slot : SlotId) : PayloadFits.Statement (.dischargeTimeout slot) :=
  payloadFits_of_event rfl

theorem PayloadFits.rampExpiry (slot : SlotId) : PayloadFits.Statement (.rampExpiry slot) :=
  payloadFits_of_event rfl

theorem PayloadFits.resetPulseExpiry (slot : SlotId) : PayloadFits.Statement (.resetPulseExpiry slot) :=
  payloadFits_of_event rfl

theorem PayloadFits.trainingTimeout (slot : SlotId) : PayloadFits.Statement (.trainingTimeout slot) :=
  payloadFits_of_event rfl

theorem PayloadFits.restoreTimeout (slot : SlotId) : PayloadFits.Statement (.restoreTimeout slot) :=
  payloadFits_of_event rfl

theorem PayloadFits.resendTimerExpiry (slot : SlotId) : PayloadFits.Statement (.resendTimerExpiry slot) :=
  payloadFits_of_event rfl

theorem PayloadFits.replayWriteDeadline (slot : SlotId) : PayloadFits.Statement (.replayWriteDeadline slot) :=
  payloadFits_of_event rfl

theorem PayloadFits.prsntChange (slot : SlotId) (asserted : Bool) : PayloadFits.Statement (.prsntChange slot asserted) :=
  payloadFits_of_event rfl

theorem PayloadFits.presenceDebounceExpiry (slot : SlotId) : PayloadFits.Statement (.presenceDebounceExpiry slot) :=
  payloadFits_of_event rfl

theorem PayloadFits.conversionEnd (q : Quantity) : PayloadFits.Statement (.conversionEnd q) :=
  payloadFits_of_event rfl

theorem PayloadFits.pwrenChange (slot : SlotId) (level : Bool) : PayloadFits.Statement (.pwrenChange slot level) :=
  payloadFits_of_event rfl

theorem PayloadFits.attnBlinkToggle (slot : SlotId) : PayloadFits.Statement (.attnBlinkToggle slot) :=
  payloadFits_of_event rfl

theorem PayloadFits.powerOnReset : PayloadFits.Statement (.powerOnReset) :=
  payloadFits_of_event rfl

theorem PayloadFits.endOfPowerOnReset (rate : Bool) (autoon : Bool) : PayloadFits.Statement (.endOfPowerOnReset rate autoon) :=
  payloadFits_of_event rfl

theorem PayloadFits.controlReset : PayloadFits.Statement (.controlReset) :=
  payloadFits_of_event rfl

theorem PayloadFits.cresetRelease : PayloadFits.Statement (.cresetRelease) :=
  payloadFits_of_event rfl

theorem PayloadFits.characterReceived (value : Byte) (stopBit : Bool) : PayloadFits.Statement (.characterReceived value stopBit) :=
  payloadFits_of_event rfl

theorem PayloadFits.gapTimerExpiry : PayloadFits.Statement (.gapTimerExpiry) :=
  payloadFits_of_event rfl

theorem PayloadFits.replyStart : PayloadFits.Statement (.replyStart) :=
  payloadFits_of_event rfl

theorem PayloadFits.replySent : PayloadFits.Statement (.replySent) :=
  payloadFits_of_event rfl

theorem PayloadFits.id (sb : Byte) (holdOff : Option Byte) : PayloadFits.Statement (.id sb holdOff) :=
  payloadFits_of_fields rfl fun _ => by cases holdOff <;> simp [BmcRequest.fieldBytes]

theorem PayloadFits.slotGet (sb : Byte) : PayloadFits.Statement (.slotGet sb) :=
  payloadFits_of_fields rfl fun _ => by simp [BmcRequest.fieldBytes]

theorem PayloadFits.slotSet (sb : Byte) (record : RawPolicy) : PayloadFits.Statement (.slotSet sb record) :=
  payloadFits_of_fields rfl fun _ => by simp [BmcRequest.fieldBytes, RawPolicy.bytes, length_leBytes]

theorem PayloadFits.fence (sb : Byte) : PayloadFits.Statement (.fence sb) :=
  payloadFits_of_fields rfl fun _ => by simp [BmcRequest.fieldBytes]

theorem PayloadFits.recover (sb : Byte) (kind : Byte) : PayloadFits.Statement (.recover sb kind) :=
  payloadFits_of_fields rfl fun _ => by simp [BmcRequest.fieldBytes]

theorem PayloadFits.quar (sb : Byte) : PayloadFits.Statement (.quar sb) :=
  payloadFits_of_fields rfl fun _ => by simp [BmcRequest.fieldBytes]

theorem PayloadFits.pwrOn (sb : Byte) : PayloadFits.Statement (.pwrOn sb) :=
  payloadFits_of_fields rfl fun _ => by simp [BmcRequest.fieldBytes]

theorem PayloadFits.pwrOff (sb : Byte) : PayloadFits.Statement (.pwrOff sb) :=
  payloadFits_of_fields rfl fun _ => by simp [BmcRequest.fieldBytes]

theorem PayloadFits.winSet (sb : Byte) (pairs : List (BitVec 40 × BitVec 40)) : PayloadFits.Statement (.winSet sb pairs) :=
  payloadFits_of_fields rfl fun h => by
    have : pairs.length ≤ 5 := of_decide_eq_true h
    simp [BmcRequest.fieldBytes, length_pageBytes]; omega

theorem PayloadFits.denySet (sb : Byte) (pairs : List (BitVec 40 × BitVec 40)) : PayloadFits.Statement (.denySet sb pairs) :=
  payloadFits_of_fields rfl fun h => by
    have : pairs.length ≤ 5 := of_decide_eq_true h
    simp [BmcRequest.fieldBytes, length_pageBytes]; omega

theorem PayloadFits.budgetSet (sb : Byte) (budget : Byte) : PayloadFits.Statement (.budgetSet sb budget) :=
  payloadFits_of_fields rfl fun _ => by simp [BmcRequest.fieldBytes]

theorem PayloadFits.scoreSet (sb : Byte) (params : RawScore) : PayloadFits.Statement (.scoreSet sb params) :=
  payloadFits_of_fields rfl fun _ => by simp [BmcRequest.fieldBytes, length_leBytes]

theorem PayloadFits.imgRead (sb : Byte) (index : Byte) : PayloadFits.Statement (.imgRead sb index) :=
  payloadFits_of_fields rfl fun _ => by simp [BmcRequest.fieldBytes]

theorem PayloadFits.imgPut (sb : Byte) (offset : BitVec 16) (value : Dword) (mask : Byte) :
    PayloadFits.Statement (.imgPut sb offset value mask) :=
  payloadFits_of_fields rfl fun _ => by simp [BmcRequest.fieldBytes, length_leBytes]

theorem PayloadFits.imgDrop (sb : Byte) : PayloadFits.Statement (.imgDrop sb) :=
  payloadFits_of_fields rfl fun _ => by simp [BmcRequest.fieldBytes]

theorem PayloadFits.filterSet (sb : Byte) (ranges : List (BitVec 16 × BitVec 16)) : PayloadFits.Statement (.filterSet sb ranges) :=
  payloadFits_of_fields rfl fun h => by
    have : ranges.length ≤ 14 := of_decide_eq_true h
    simp [BmcRequest.fieldBytes, length_boundBytes]; omega

theorem PayloadFits.pinMode (sb : Byte) (mode : Byte) : PayloadFits.Statement (.pinMode sb mode) :=
  payloadFits_of_fields rfl fun _ => by simp [BmcRequest.fieldBytes]

theorem PayloadFits.pinLoad (sb : Byte) (pwren : Byte) (clken : Byte) (crst : Byte) (attn : Byte) :
    PayloadFits.Statement (.pinLoad sb pwren clken crst attn) :=
  payloadFits_of_fields rfl fun _ => by simp [BmcRequest.fieldBytes]

theorem PayloadFits.pinSample (sb : Byte) : PayloadFits.Statement (.pinSample sb) :=
  payloadFits_of_fields rfl fun _ => by simp [BmcRequest.fieldBytes]

theorem PayloadFits.railRead (sb : Byte) : PayloadFits.Statement (.railRead sb) :=
  payloadFits_of_fields rfl fun _ => by simp [BmcRequest.fieldBytes]

theorem PayloadFits.reportTake (sb : Byte) : PayloadFits.Statement (.reportTake sb) :=
  payloadFits_of_fields rfl fun _ => by simp [BmcRequest.fieldBytes]

theorem PayloadFits.partReset (sb : Byte) : PayloadFits.Statement (.partReset sb) :=
  payloadFits_of_fields rfl fun _ => by simp [BmcRequest.fieldBytes]

end Sys2Proof.Laws
end

