-- ==== Sys2Proof/Tests/Slice0.lean ====
section
/-! SUPPORT. Smoke tests of the checks on operands, a few single steps with the spec's own numbers, and for every statement that has
hypotheses a concrete part that meets them. -/

namespace Sys2Proof.Tests

open Sys2Proof Sys2Proof.Machine

/-! ### Small states -/

/-- The part after reset with slot 0 in a state, its card link UP, and changed by `f`. -/
def part (st : SlotState) (f : Slot → Slot) : State :=
  State.reset.modSlot 0 fun sl => f { sl with ctl.state := st, chan.gateOpen := st.isOpen, chan.linkUp := true }

/-- A memory read with the tag. -/
def read (tag : Tag) : Request := { tag := tag, kind := .memRead 0x10000000 2 }

/-- A message with the tag. -/
def note (tag : Tag) : Request := { tag := tag, kind := .message }

/-- A pending memory read of two dwords, due at timebase 0. -/
def pend (tag : Tag) (kind : EntryKind) : Entry :=
  { tag := tag, kind := kind, owed := 2, delivered := 0, arrival := 0, deadline := 0 }

/-- A held request, due at timebase 0. -/
def held (r : Request) : Held := { req := r, arrival := 0, deadline := 0 }

/-- A completion with one dword. -/
def one (tag : Tag) : Completion := { tag := tag, status := .success, data := [7], final := true }

/-- A rail result with its marks. -/
def rail (code : Nat) : RailResult := { code := code, mark := true, afterOff := true }

/-- An image entry. -/
def img (o : Offset) : ImgEntry := { offset := o, value := 0x000000AA, mask := 1 }

/-- The state an outcome leaves. -/
def after (o : Host.Outcome State Fault Refusal) : State :=
  match o with
  | .next t => t
  | _ => State.reset

/-! ### Operands outside their ranges are refused -/

theorem test_wf_length_zero : (Instr.hostRequest 0 { tag := 1, kind := .memRead 0 0 }).wf = false := by decide

theorem test_wf_length_above : (Instr.cardRequest 0 { tag := 1, kind := .memRead 0 1025 }).wf = false := by decide

theorem test_wf_length_top : (Instr.cardRequest 0 { tag := 1, kind := .memRead 0 1024 }).wf = true := by decide

theorem test_wf_write_without_data : (Instr.hostRequest 0 { tag := 1, kind := .memWrite 0 [] }).wf = false := by decide

theorem test_wf_write_too_long :
    (Instr.hostRequest 0 { tag := 1, kind := .memWrite 0 (List.replicate 1025 0) }).wf = false := by decide +kernel

theorem test_wf_io_mask_zero : (Instr.hostRequest 0 { tag := 1, kind := .ioWrite 0 0 0 }).wf = false := by decide

theorem test_wf_cfg_mask_zero : (Instr.hostRequest 0 { tag := 1, kind := .cfgWrite 0 0 0 }).wf = false := by decide

theorem test_wf_failed_with_data :
    (Instr.cardCompletion 0 .host { tag := 1, status := .abort, data := [0], final := true }).wf = false := by decide

theorem test_wf_failed_not_final :
    (Instr.hostCompletion 0 { tag := 1, status := .retry, data := [], final := false }).wf = false := by decide

theorem test_wf_completion_too_long :
    (Instr.hostCompletion 0 { tag := 1, status := .success, data := List.replicate 1025 0, final := true }).wf = false := by
  decide +kernel

theorem test_wf_six_windows : (Instr.winSet 0 (List.replicate 6 (0, 0))).wf = false := by decide

theorem test_wf_six_deny_ranges : (Instr.denySet 0xFF (List.replicate 6 (0, 0))).wf = false := by decide

theorem test_wf_fifteen_filter_ranges : (Instr.filterSet 0xFF (List.replicate 15 (0, 0))).wf = false := by decide

theorem test_ill_formed_is_a_fault :
    exec (.hostRequest 0 { tag := 1, kind := .memRead 0 0 }) State.reset = .fault .illFormedCommand := rfl

theorem test_no_word_is_a_command : decodeTableWord 8 4 = none := rfl

/-! ### Numbers of the spec -/

/-- Section 10.9: the request frame of FENCE on slot 3, and its reply's. -/
theorem test_frames_of_section_10_9 :
    frameOf (encodeRequest 3 .fence) = [0xA5, 0x02, 0x04, 0x03, 0xF7]
      ∧ frameOf [0x84, 0x00, 0x02] = [0xA5, 0x03, 0x84, 0x00, 0x02, 0x77] := by decide

/-- R164's table of conversions. -/
theorem test_conversions_of_R164 :
    railCode ⟨11873, 0⟩ 4 = 2968 ∧ railCode ⟨17000, 0⟩ 4 = 4095 ∧ railCode ⟨998, 0⟩ 4 = 250 ∧ railCode ⟨2995, 9⟩ 1 = 300
      ∧ railCode ⟨2994, 9⟩ 1 = 299 ∧ railCode ⟨6252, 0⟩ 5 = 1250 ∧ railCode ⟨6253, 0⟩ 5 = 1251 ∧ railCode ⟨-1, 0⟩ 4 = 0 := by
  decide

/-- R118's table of merges. -/
theorem test_merges_of_R118 :
    (ImgEntry.merge ⟨1, 0x00000006, 3⟩ 0x12340000 12) = ⟨1, 0x12340006, 15⟩
      ∧ (ImgEntry.merge ⟨1, 0xFEB00000, 15⟩ 0xFEC00000 12) = ⟨1, 0xFEC00000, 15⟩
      ∧ (ImgEntry.merge ⟨1, 0x00000006, 3⟩ 0x00000002 1) = ⟨1, 0x00000002, 3⟩
      ∧ (ImgEntry.merge ⟨1, 0x0000000B, 1⟩ 0xAABBCCDD 2) = ⟨1, 0x0000CC0B, 3⟩ := by decide

/-- Section 8.8: the checks at 110, 120, 150 and 170 ms, and section 8.9's write past the top. -/
theorem test_checks_of_section_8_8 :
    let deny := [Span.mk 0 0xFF, Span.mk 0x1F000 0x1F000]
    let windows := [Span.mk 0x10000 0x1FFFF, Span.mk 0x20000 0x200FF]
    permitFailure deny windows 0x10000000 16 = none ∧ permitFailure deny windows 0x1FFFFF80 64 = some .outside
      ∧ permitFailure deny windows 0x000F0000 4 = some .denied ∧ permitFailure deny windows 0x1F000800 8 = some .denied
      ∧ permitFailure deny [] 0xFFFFFFFFFF00 128 = some .outside := by decide

/-- Section 10.9: FENCE of a slot in ONLINE, here slot 0 with one entry pending, reaches FENCING and is answered OK. -/
theorem test_fence_of_section_10_9 :
    let t := after (exec (.fence 0) (part .online fun sl => { sl with entries := [pend 1 .memRead] }))
    (t.slot 0).ctl.state = .fencing ∧ t.link.inProcess.map (fun p => p.reply) = some [0x84, 0x00, 0x02] := by
  decide +kernel

/-- R24: a host request with a pending tag gets ABORT and leaves the entry. -/
theorem test_collision :
    let t := after (exec (.hostRequest 0 (read 1)) (part .online fun sl => { sl with entries := [pend 1 .memRead] }))
    (t.slot 0).chan.hostOut = [.completion (Completion.bare 1 .abort)] ∧ (t.slot 0).entries.length = 1 := by
  decide +kernel

/-- R23, R26: the 25th request of a slot waits for its quota, and an entry's end lets it in. -/
theorem test_quota_wait :
    let s := part .online fun sl => { sl with entries := (List.range 24).map fun n => pend (BitVec.ofNat 8 n) .ioWrite }
    let t := after (exec (.hostRequest 0 (read 99)) s)
    let u := after (exec (.cardCompletion 0 .host (Completion.bare 5 .abort)) t)
    (t.slot 0).chan.hold.isSome = true ∧ (u.slot 0).chan.hold.isSome = false ∧ (u.slot 0).entries.length = 24 := by
  decide +kernel

/-- Section 8.9: a failing write at score 120 is reported, and fences the slot; its live tag becomes a ghost. -/
theorem test_errant_fence_of_section_8_9 :
    let s := part .suspect fun sl =>
      { sl with ctl.score := 120, outbound.tags := [{ tag := 9, ghost := false }], entries := [pend 1 .memRead] }
    let t := after (exec (.cardRequest 0 { tag := 0, kind := .memWrite 0xFFFFFFFFFF00 (List.replicate 128 0) }) s)
    t.reports.records.map (fun r => (r.kind, r.value)) =
        [(.errant, some 0xFFFFFFFFF), (.hang, some 136), (.state, some 136)]
      ∧ (t.slot 0).outbound.tags = [{ tag := 9, ghost := true }] := by decide +kernel

/-- R140, R142, section 7.9: with slot 0 granted and slots 1 and 2 in the queue, the partner at the head blocks slot 2. -/
theorem test_partner_blocks_the_head :
    let s : State := { State.reset with arbiter := { budget := 200, queue := [⟨1, 50⟩, ⟨2, 50⟩], granted := [⟨0, 50⟩] } }
    s.grantCheck = s := by decide +kernel

/-- R128: a replay write at its deadline fails the attempt. -/
theorem test_replay_write_deadline :
    let s := part .restoring fun sl => { sl with ctl.attempts := 1, store.outstanding := some ⟨4, 0⟩ }
    let t := after (exec (.replayWriteDeadline 0) s)
    (t.slot 0).ctl.state = .discharging ∧ (t.slot 0).ctl.attempts = 2 := by decide +kernel

/-! ### The hypotheses of the statements can be met -/

theorem test_meets_StepRunsFrontCommand : ∃ (s : State) (c : Instr) (rest : List Instr), s.pending = c :: rest :=
  ⟨{ State.reset with pending := [.decayEvent, .quar 0] }, _, _, rfl⟩

theorem test_meets_IdleStepPassesTime :
    (∃ s : State, s.pending = [] ∧ s.porHeld = true) ∧ (∃ s : State, s.pending = [] ∧ s.porHeld = false ∧ s.owed = [])
      ∧ ∃ (s : State) (c : Instr), s.pending = [] ∧ s.porHeld = false ∧ s.owed = [.event c] :=
  ⟨⟨{ State.reset with porHeld := true }, by decide⟩, ⟨State.reset, by decide +kernel⟩,
    part .online fun sl => { sl with ctl.graceTimer := some 0 }, .linkGraceExpiry 0, by decide +kernel⟩

/-- A conversion's end, and on each side of slot 0 the arrival of the older of two requests that wait in the link. -/
theorem test_meets_IdleStepPassesTime_arrivals :
    let s : State :=
      { (part .online fun sl => { sl with chan.hostWaiting := [read 1, note 2], chan.cardWaiting := [note 3, read 4] }) with
        monitor.convEnd := some 0 }
    s.pending = [] ∧ s.porHeld = false ∧ s.owed = [.hostArrival 0, .cardArrival 0, .conversion]
      ∧ (s.slot 0).chan.hostWaiting = read 1 :: [note 2] ∧ (read 1).wf = true
      ∧ (s.slot 0).chan.cardWaiting = note 3 :: [read 4] ∧ (note 3).wf = true := by decide +kernel

/-- A slot with every timer due at timebase 0. -/
def allDue : State :=
  let s := part .fencing fun sl =>
    { sl with
      chan.hold := some (held (read 1)), entries := [pend 2 .memRead], outbound.deadline := some 0
      ctl :=
        { sl.ctl with
          graceTimer := some 0, drainTimer := some 0, decisionTimer := .running 0, minOffTimer := some 0
          dischargeTimer := some 0, rampTimer := some 0, pulseTimer := .running 0, trainingTimer := some 0
          restoreTimer := some 0 }
      store.resendTimer := some 0, store.outstanding := some ⟨1, 0⟩
      pins.debounce := some 0, pins.startUp := false, pins.blinkTimer := some 0 }
  { s with scorer.decayTimer := some 0, monitor.convEnd := some 0, link.gapTimer := some 0 }

theorem test_meets_EveryDueExpiryIsOwed :
    let s := allDue
    let sl := s.slot 0
    (∃ h, sl.chan.hold = some h ∧ h.deadline = s.now) ∧ (∃ e ∈ sl.entries, e.deadline = s.now)
      ∧ sl.outbound.deadline = some s.now ∧ sl.ctl.graceTimer = some s.now ∧ sl.ctl.drainTimer = some s.now
      ∧ sl.ctl.decisionTimer = .running s.now ∧ sl.ctl.minOffTimer = some s.now ∧ sl.ctl.dischargeTimer = some s.now
      ∧ sl.ctl.rampTimer = some s.now ∧ sl.ctl.pulseTimer = .running s.now ∧ sl.ctl.trainingTimer = some s.now
      ∧ sl.ctl.restoreTimer = some s.now ∧ sl.store.resendTimer = some s.now
      ∧ (∃ o, sl.store.outstanding = some o ∧ o.deadline = s.now)
      ∧ sl.pins.debounce = some s.now ∧ sl.pins.startUp = false ∧ sl.pins.blinkTimer = some s.now
      ∧ s.scorer.decayTimer = some s.now ∧ s.monitor.convEnd = some s.now ∧ s.link.gapTimer = some s.now :=
  ⟨⟨held (read 1), by decide⟩, ⟨pend 2 .memRead, by decide⟩, by decide, by decide, by decide, by decide, by decide, by decide,
    by decide, by decide, by decide, by decide, by decide, ⟨⟨1, 0⟩, by decide⟩, by decide, by decide, by decide, by decide,
    by decide, by decide⟩

theorem test_meets_EveryDueExpiryIsOwed_arrivals :
    let s := part .online fun sl => { sl with chan.hostWaiting := [read 1], chan.cardWaiting := [read 2] }
    (s.slot 0).chan.inReset = false ∧ (s.slot 0).chan.hold = none ∧ (s.slot 0).chan.hostWaiting ≠ []
      ∧ (s.slot 0).chan.linkUp = true ∧ (s.slot 0).chan.cardHold = none ∧ (s.slot 0).chan.cardWaiting ≠ [] := by decide

/-- A reply whose time has come at 10 us, 5,760 units of the line, and one whose last character has been sent. -/
theorem test_meets_EveryDueExpiryIsOwed_replies :
    let at_ := fun p : InProcess => ({ State.reset with link.inProcess := some p, elapsed := 10 } : State)
    ∀ p ∈ [InProcess.mk [0x84, 0, 2] false false 5760 0, ⟨[0x84, 0, 2], false, true, 0, 5760⟩],
      (at_ p).link.inProcess = some p
        ∧ (p.started = false ∧ p.startAt ≤ (at_ p).elapsed * 576 ∨ p.started = true ∧ p.endAt ≤ (at_ p).elapsed * 576) := by
  decide

theorem test_meets_EveryDueExpiryIsOwed_startUp :
    let s := part .off fun sl => { sl with pins.debounce := some 0, pins.startUp := true }
    (s.slot 0).pins.debounce = some s.now ∧ (s.slot 0).pins.startUp = true
      ∧ ∀ j < (0 : SlotId), (s.slot j).pins.startUp = true → (s.slot j).pins.debounce ≠ some s.now := by decide

theorem test_meets_CommandsCompleteOrFault : (∃ c : Instr, c.wf = true) ∧ ∃ c : Instr, c.wf = false :=
  ⟨⟨.decayEvent, by decide⟩, .hostRequest 0 { tag := 1, kind := .memRead 0 0 }, by decide⟩

/-- Slot 0 serves with one request pending, slot 1 is granted and slot 2 waits; one command waits. -/
def soundPart : State :=
  let s := part .online fun sl => { sl with entries := [pend 1 .memRead], outbound.tags := [⟨3, false⟩] }
  { ((s.modSlot 1 fun sl => { sl with ctl.state := .ramping, ctl.attempts := 1 }).modSlot 2
      fun sl => { sl with ctl.state := .powerWait, ctl.attempts := 1 }) with
    arbiter := { budget := 100, queue := [⟨2, 60⟩], granted := [⟨1, 50⟩] }
    pending := [.cresetRelease] }

theorem test_meets_StepKeepsThePartSound :
    soundPart.Sound ∧ step soundPart = .next { soundPart with pending := [] } := by
  refine ⟨?_, rfl⟩
  unfold State.Sound
  decide +kernel

theorem test_meets_StepKeepsTheArbiterSound :
    soundPart.ArbiterSound ∧ step soundPart = .next { soundPart with pending := [] } := by
  refine ⟨?_, rfl⟩
  unfold State.ArbiterSound
  decide +kernel

theorem test_meets_StepKeepsThePoolSound : soundPart.PoolSound := by
  unfold State.PoolSound
  decide +kernel

/-- Traffic while POR# is held. -/
theorem test_meets_PowerOnResetClearsThePart :
    let s := after (exec .powerOnReset State.reset)
    let c : Instr := .hostRequest 0 (read 1)
    s.porHeld = true ∧ c.wf = true ∧ c ≠ .powerOnReset ∧ (∀ r a, c ≠ .endOfPowerOnReset r a) ∧ c ≠ .controlReset
      ∧ c ≠ .cresetRelease ∧ (∀ i b, c ≠ .prsntChange i b) ∧ (∀ i, c ≠ .calertAssertion i) ∧ (∀ i, c ≠ .calertRelease i)
      ∧ ∀ i b, c ≠ .pwrenChange i b :=
  ⟨by decide, by decide, nofun, nofun, nofun, nofun, nofun, nofun, nofun, nofun⟩

theorem test_meets_EndOfPowerOnResetStartsThePart :
    (after (exec .powerOnReset State.reset)).porHeld = true ∧ State.reset.porHeld = false := by decide

theorem test_meets_ControlResetClearsThreeBlocks :
    (∀ p ∈ [none, some (InProcess.mk [] false true 0 0), some ⟨[], false, false, 0, 0⟩],
        let s : State := { State.reset with link.inProcess := p }
        s.porHeld = false ∧ s.cresetHeld = false ∧ s.link.inProcess = p)
      ∧ ({ State.reset with cresetHeld := true } : State).cresetHeld = true := by decide

/-- The quota's last place: 23 entries of 24. -/
theorem test_meets_HostRequestPassesAnOpenGate :
    let s := part .suspect fun sl => { sl with entries := (List.range 23).map fun n => pend (BitVec.ofNat 8 n) .ioWrite }
    (note 1).wf = true ∧ (note 1).posted = true ∧ (read 99).wf = true ∧ (read 99).posted = false ∧ s.porHeld = false
      ∧ (s.slot 0).hostClear ∧ (s.slot 0).serving ∧ (s.slot 0).chan.linkUp = true
      ∧ (∀ e ∈ (s.slot 0).entries, e.tag ≠ (read 99).tag) ∧ (s.slot 0).entries.length < (s.slot 0).policy.quota
      ∧ 0 < s.poolFree := by decide +kernel

theorem test_meets_PendingTagIsRefused :
    ∃ (s t : State) (i : SlotId) (r : Request), r.wf = true ∧ r.posted = false ∧ s.porHeld = false ∧ t.porHeld = false
      ∧ (s.slot i).hostClear ∧ (t.slot i).hostClear ∧ ((s.slot i).serving ∧ (s.slot i).chan.linkUp = true)
      ∧ (t.slot i).ctl.state = .fencing ∧ (∃ e ∈ (s.slot i).entries, e.tag = r.tag)
      ∧ ∃ e ∈ (t.slot i).entries, e.tag = r.tag :=
  ⟨part .online fun sl => { sl with entries := [pend 1 .memRead] },
    part .fencing fun sl => { sl with entries := [pend 1 .memRead] }, 0, read 1, by decide⟩

theorem test_meets_HostRequestIsHeld :
    (∃ (s : State) (i : SlotId) (r : Request), r.wf = true ∧ s.porHeld = false ∧ (s.slot i).chan.inReset = true)
      ∧ (∃ (s t : State) (i : SlotId) (r : Request), r.wf = true ∧ s.porHeld = false ∧ t.porHeld = false
          ∧ (s.slot i).chan.inReset = false ∧ (s.slot i).chan.hold ≠ none ∧ (t.slot i).chan.inReset = false
          ∧ (t.slot i).chan.hostWaiting ≠ [])
      ∧ (∃ (s t : State) (i : SlotId) (r : Request), r.wf = true ∧ s.porHeld = false ∧ t.porHeld = false
          ∧ (s.slot i).hostClear ∧ (s.slot i).serving ∧ (s.slot i).chan.linkUp = false ∧ (t.slot i).hostClear
          ∧ (t.slot i).ctl.state = .restoring)
      ∧ (∃ (s : State) (i : SlotId) (r : Request), r.wf = true ∧ s.porHeld = false ∧ (s.slot i).hostClear
          ∧ (s.slot i).serving ∧ (s.slot i).chan.linkUp = true ∧ r.posted = false
          ∧ (∀ e ∈ (s.slot i).entries, e.tag ≠ r.tag) ∧ (s.slot i).policy.quota ≤ (s.slot i).entries.length)
      ∧ ∃ (s : State) (i : SlotId) (r : Request), r.wf = true ∧ s.porHeld = false ∧ (s.slot i).hostClear
          ∧ (s.slot i).serving ∧ (s.slot i).chan.linkUp = true ∧ r.posted = false
          ∧ (∀ e ∈ (s.slot i).entries, e.tag ≠ r.tag) ∧ (s.slot i).entries.length < (s.slot i).policy.quota
          ∧ s.poolFree = 0 :=
  ⟨⟨part .online fun sl => { sl with chan.inReset := true }, 0, read 1, by decide⟩,
    ⟨part .online fun sl => { sl with chan.hold := some (held (read 2)) },
      part .online fun sl => { sl with chan.hostWaiting := [read 2] }, 0, read 1, by decide⟩,
    ⟨part .suspect fun sl => { sl with chan.linkUp := false }, part .restoring id, 0, read 1, by decide⟩,
    ⟨part .online fun sl => { sl with entries := List.replicate 24 (pend 2 .ioWrite) }, 0, read 1, by decide +kernel⟩,
    ({ part .online id with
        slots := (part .online id).slots.mapIdx fun n sl =>
          if n = 0 then sl else { sl with entries := List.replicate 64 (pend 2 .ioWrite) } } : State), 0, read 1,
    by decide +kernel⟩

theorem test_meets_HostRequestIsAbsorbed :
    ∃ s t : State, s.porHeld = false ∧ t.porHeld = false ∧ (s.slot 0).hostClear ∧ (t.slot 0).hostClear
      ∧ ¬ (s.slot 0).serving ∧ (s.slot 0).ctl.state ≠ .restoring ∧ (s.slot 0).ctl.state ≠ .fencing
      ∧ (t.slot 0).ctl.state = .fencing ∧ (∀ e ∈ (t.slot 0).entries, e.tag ≠ 2)
      ∧ (note 2).wf = true ∧ (note 2).posted = true ∧ (read 2).wf = true
      ∧ (note 1).wf = true ∧ (note 1).posted = true ∧ (∃ e ∈ (t.slot 0).entries, e.tag = (note 1).tag)
      ∧ (Request.mk 2 (.ioRead 5)).wf = true ∧ (Request.mk 2 (.ioWrite 5 15 0)).wf = true
      ∧ (Request.mk 2 (.cfgRead 0)).wf = true ∧ (Request.mk 2 (.cfgWrite 1023 1 0)).wf = true :=
  ⟨part .isolated id, part .fencing fun sl => { sl with entries := [pend 1 .memRead] }, by decide⟩

theorem test_meets_MergeReplacesTheNamedBytes :
    ∃ (st : ImageStore) (n k : Nat) (e f : ImgEntry) (o : Offset), st.entries[n]? = some e ∧ e.offset = o
      ∧ st.entries[k]? = some f ∧ f.offset ≠ o :=
  ⟨{ ImageStore.powerOn with entries := [img 1, img 1023] }, 1, 0, img 1023, img 1, 1023, by decide⟩

theorem test_meets_NewOffsetIsAppendedWithRoom :
    ∃ (st full : ImageStore) (f : List Span) (o : Offset), o ≠ 0 ∧ inFilter f o = false ∧ (∀ e ∈ st.entries, e.offset ≠ o)
      ∧ st.entries.length < 48 ∧ (∀ e ∈ full.entries, e.offset ≠ o) ∧ full.entries.length = 48 :=
  ⟨{ ImageStore.powerOn with entries := (List.range 47).map fun n => img (BitVec.ofNat 10 (n + 1)) },
    { ImageStore.powerOn with entries := (List.range 48).map fun n => img (BitVec.ofNat 10 (n + 1)) }, [⟨50, 60⟩], 49,
    by decide +kernel⟩

theorem test_meets_ImageTakesAndServesConfiguration :
    ∃ (st : ImageStore) (f : List Span) (o p q : Offset), (∃ r ∈ f, r.base ≤ o.toNat ∧ o.toNat ≤ r.limit)
      ∧ p ≠ 0 ∧ (∀ r ∈ f, p.toNat < r.base ∨ r.limit < p.toNat) ∧ (∃ e ∈ st.entries, e.offset = p)
      ∧ q ≠ 0 ∧ (∀ e ∈ st.entries, e.offset ≠ q) ∧ st.sound :=
  ⟨{ ImageStore.powerOn with entries := [img 4, img 1] }, [⟨5, 6⟩], 6, 4, 7, by decide⟩

/-- One deny range of one page and one window of two: the last dword below the top, a span over the top, and each side of an edge. -/
theorem test_meets_PermitCheckDecides :
    let s : State :=
      { (part .online fun sl => { sl with permit.windows := sl.permit.windows.set 1 (some ⟨0x10, 0x11⟩) }) with
        deny := State.reset.deny.set 0 (some ⟨0x20, 0x20⟩) }
    let windows := (s.slot 0).permit.windows
    let meets := fun a b : Nat => ∃ k : Fin 2, s.deny[k].any (fun r => decide (r.base ≤ b ∧ a ≤ r.limit)) = true
    let holds := fun a b : Nat => ∃ k : Fin 4, windows[k].any (fun w => decide (w.base ≤ a ∧ b ≤ w.limit)) = true
    2 ^ 48 - 1 < 0xFFFFFFFFFFFC + 4 * 2 - 1 ∧ 0xFFFFFFFFFFFC + 4 * 1 - 1 ≤ 2 ^ 48 - 1
      ∧ meets 0x1F 0x20 ∧ meets 0x20 0x21 ∧ ¬ meets 0x21 0x21 ∧ ¬ meets 0x10 0x11 ∧ holds 0x10 0x11 ∧ ¬ holds 0x11 0x12
      ∧ ¬ meets 0x11 0x12 ∧ (∃ k : Fin 4, windows[k] ≠ none)
      ∧ ∀ k : Fin 4, (State.reset.slot 0).permit.windows[k] = none := by decide

theorem test_meets_RailCodeRounds :
    let low : Int := 2 * (-3) + 4
    let high : Int := 2 * 16382 + 4
    let edge : Int := 2 * 998 + 4
    low < 0 ∧ 2 * 4 * 4096 ≤ high ∧ 2 * 4 * 250 ≤ edge ∧ edge < 2 * 4 * (250 + 1) ∧ 250 ≤ 4095 := by decide

/-- With nobody, or the slot alone, on the pool wait list no other slot may take a freed entry. -/
theorem test_unclaimed {s : State} {i : SlotId} (h : ∀ j ∈ s.poolWait, j = i) : s.unclaimed i :=
  fun j hj hn => absurd (h j hj) hn

/-- A slot whose held request and whose entries are due; it stands on the pool wait list itself. -/
def expiring (st : SlotState) (r : Request) (entries : List Entry) : State :=
  let s := part st fun sl => { sl with chan.hold := some (held r), entries := entries, ctl.score := 100 }
  { s with poolWait := [0] }

theorem test_meets_ExpiriesAnswerByFillMode :
    (∀ st ∈ [SlotState.online, .suspect, .restoring], ∀ r ∈ [read 1, note 1], let s := expiring st r []
        s.porHeld = false ∧ (s.slot 0).chan.hold = some (held r) ∧ (held r).deadline = s.now)
      ∧ (read 1).posted = false ∧ (note 1).posted = true
      ∧ (∀ st ∈ [SlotState.online, .fencing], ∀ before ∈ [[], [pend 1 .memRead]],
          let s := expiring st (read 5) (before ++ [pend 2 .ioWrite])
          s.porHeld = false ∧ (s.slot 0).entries = before ++ pend 2 .ioWrite :: []
            ∧ (∀ x ∈ before, x.tag ≠ (pend 2 .ioWrite).tag) ∧ (pend 2 .ioWrite).deadline = s.now
            ∧ (s.slot 0).ctl.state = st) :=
  ⟨by decide, by decide, by decide, by decide⟩

/-- A part with one entry of a kind before another, and what hangs on it. -/
def ending (kind : EntryKind) (owed : Nat) : State :=
  part .fencing fun sl => { sl with entries := [pend 1 .memRead, { pend 2 kind with owed := owed }] }

/-- Each way a completion ends an entry. -/
def endings : List (EntryKind × Completion) :=
  [(.memRead, one 2), (.ioRead, one 2), (.cfgRead 0, one 2), (.ioWrite, Completion.bare 2 .success),
    (.cfgWrite 3 0 15, Completion.bare 2 .success), (.memRead, Completion.bare 2 .abort),
    (.ioWrite, Completion.bare 2 .unsupported)]

theorem test_ended : ∀ p ∈ endings, ({ pend 2 p.1 with owed := 1 } : Entry).EndedBy p.2 := by
  simp [endings, Entry.EndedBy, one, Completion.bare, pend]

theorem test_meets_CompletionMeetsItsEntry :
    let serving := part .online fun sl =>
      { sl with entries := [pend 2 .memRead, pend 1 .ioWrite], chan.hold := some (held (read 5)), policy.quota := 2 }
    let last := part .fencing fun sl => { sl with entries := [pend 2 .memRead] }
    let partialOne : Completion := { tag := 2, status := .success, data := [5, 6], final := false }
    (∀ p ∈ endings, let s := ending p.1 1
        s.porHeld = false ∧ (s.slot 0).chan.linkUp = true ∧ p.2.wf = true ∧ p.2.tag = 2
          ∧ (s.slot 0).entries = [pend 1 .memRead] ++ { pend 2 p.1 with owed := 1 } :: []
          ∧ (s.slot 0).ctl.state = .fencing)
      ∧ (Completion.bare 2 .retry).wf = true
      ∧ (last.slot 0).ctl.state = .fencing ∧ (last.slot 0).entries = [] ++ pend 2 .memRead :: []
      ∧ serving.porHeld = false ∧ (serving.slot 0).serving ∧ (serving.slot 0).chan.linkUp = true
      ∧ (serving.slot 0).entries = [] ++ pend 2 .memRead :: [pend 1 .ioWrite] ∧ partialOne.wf = true
      ∧ (∀ x ∈ [] ++ [pend 1 .ioWrite], x.tag ≠ (pend 2 .memRead).tag) ∧ partialOne.final = false ∧ partialOne.data ≠ []
      ∧ (pend 2 .memRead).delivered + partialOne.data.length ≤ (pend 2 .memRead).owed := by decide

/-- A part whose pool is empty, slot 0 in a state with the entry that ends and `more`; slots 2, 1 and 3 wait for the pool: slot 2 with its
card link DOWN, slot 1 at its quota or, with `room`, below it, and slot 3 likewise below it. -/
def waiting (st : SlotState) (more : List Entry) (room : Bool) : State :=
  { (part st id) with
    poolWait := [2, 1, 3]
    slots := (part st fun sl => { sl with entries := pend 2 .memRead :: more }).slots.mapIdx fun n sl =>
      let online := { sl with ctl.state := .online, chan.gateOpen := true, chan.hold := some (held (read 7)) }
      if n = 0 then sl
      else if n = 2 then { online with entries := List.replicate (23 - more.length) (pend 5 .ioWrite) }
      else if n = 1 ∨ n = 3 then
        { online with
          chan.linkUp := true, entries := List.replicate 24 (pend 5 .ioWrite)
          policy.quota := if n = 3 ∨ room then 25 else 24 }
      else { sl with entries := List.replicate 30 (pend 5 .ioWrite) } }

/-- What slot 0 becomes as its entry is answered ABORT. -/
def aborted (s : State) (more : List Entry) : Slot :=
  ({ (s.slot 0).tellsHost (.completion (Completion.bare 2 .abort)) with entries := [] ++ more } : Slot).takes s.filter
    (pend 2 .memRead) (Completion.bare 2 .abort)

/-- Slot 2 is passed over; slot 1 takes the entry with room, and leaves the list without, where slot 3 takes it. -/
theorem test_meets_FreedEntryGoesToTheWaitingSlot :
    ∀ st ∈ [SlotState.online, .fencing], ∀ more ∈ [[], [pend 1 .ioWrite]], ∀ room ∈ [true, false],
      let s := waiting st more room
      let freed := s.setSlot 0 (aborted s more)
      let j : SlotId := if room then 1 else 3
      s.poolFree = 0 ∧ freed.poolFree = 1
        ∧ s.poolWait = (if room then [2] else [2, 1]) ++ j :: (if room then [3] else [])
        ∧ (freed.slot 2).chan.linkUp = false
        ∧ (∀ k ∈ [(1 : SlotId), 3], (freed.slot k).serving ∧ (freed.slot k).chan.linkUp = true
            ∧ (freed.slot k).chan.hold = some (held (read 7)) ∧ ∀ x ∈ (freed.slot k).entries, x.tag ≠ 7)
        ∧ (room = false → (freed.slot 1).policy.quota ≤ (freed.slot 1).entries.length)
        ∧ (freed.slot j).entries.length < (freed.slot j).policy.quota := by decide +kernel

theorem test_meets_FreedEntryGoesToTheWaitingSlot_causes :
    (read 7).posted = false ∧ (Completion.bare 2 .abort).wf = true ∧ (Completion.bare 2 .abort).status = .abort
      ∧ ∀ st ∈ [SlotState.online, .fencing], ∀ more ∈ [[], [pend 1 .ioWrite]], let s := waiting st more true
        s.porHeld = false ∧ (s.slot 0).ctl.state = st ∧ (s.slot 0).entries = [] ++ pend 2 .memRead :: more
          ∧ (s.slot 0).chan.linkUp = true ∧ (pend 2 .memRead).deadline = s.now := by decide +kernel

/-- Nobody takes the entry: nobody waits, or the one that waits may not proceed, or its quota is reached. -/
theorem test_meets_FreedEntryGoesToTheWaitingSlot_nobody :
    let s := waiting .online [] false
    ∀ pre ∈ [[], [(2 : SlotId)], [2, 1]], let u : State := { s with poolWait := pre }
      let freed := u.setSlot 0 (aborted u [])
      u.poolWait = pre ++ [] ∧ ∀ k ∈ pre, (freed.slot k).chan.linkUp = false
        ∨ ((freed.slot k).serving ∧ (freed.slot k).chan.linkUp = true ∧ (freed.slot k).chan.hold = some (held (read 7))
            ∧ (freed.slot k).policy.quota ≤ (freed.slot k).entries.length) := by decide +kernel

/-- Each way a completion does not fit an entry that is owed two dwords. -/
def misfits : List (EntryKind × Completion) :=
  [(.memRead, Completion.bare 2 .retry), (.ioWrite, Completion.bare 2 .retry),
    (.ioRead, { one 2 with data := [1, 2, 3] }), (.cfgRead 0, one 2),
    (.memRead, { Completion.bare 2 .success with final := false }), (.ioWrite, one 2),
    (.cfgWrite 3 0 15, { Completion.bare 2 .success with final := false })]

theorem test_misfit : ∀ p ∈ misfits, (pend 2 p.1).MalformedBy p.2 ∧ p.2.wf = true ∧ p.2.tag = 2 := by
  simp [misfits, Entry.MalformedBy, one, Completion.bare, pend]
  decide

theorem test_meets_UnfitCompletionsAreDropped :
    let closed := part .isolated id
    let down := part .online fun sl => { sl with chan.linkUp := false }
    let at_ := fun st => part st fun sl => { sl with entries := [pend 1 .memRead, pend 2 .ioWrite], ctl.score := 47 }
    (down.slot 0).chan.linkUp = false ∧ ¬ (closed.slot 0).serving ∧ (closed.slot 0).ctl.state ≠ .fencing
      ∧ (closed.slot 0).ctl.state ≠ .restoring
      ∧ (∀ st ∈ [SlotState.online, .fencing], let s := at_ st
          s.porHeld = false ∧ (s.slot 0).chan.linkUp = true
            ∧ (∀ e ∈ (s.slot 0).entries, e.tag ≠ (one 9).tag) ∧ (s.slot 0).ctl.state = st
            ∧ (s.slot 0).entries = [pend 1 .memRead] ++ pend 2 .ioWrite :: [])
      ∧ (one 9).wf = true ∧ ((at_ .online).slot 0).serving := by decide

/-- In RESTORING: no write outstanding, another tag, and SUCCESS with data or with the final flag clear. -/
theorem test_meets_UnfitCompletionsAreDropped_replay :
    let writes := fun o : Option Outstanding => part .restoring fun sl => { sl with store.outstanding := o }
    ∀ p ∈ [(none, one 7), (some ⟨6, 9⟩, Completion.bare 7 .success), (some ⟨7, 9⟩, one 7),
        (some ⟨7, 9⟩, { Completion.bare 7 .success with final := false })], let s := writes p.1
      s.porHeld = false ∧ (s.slot 0).chan.linkUp = true ∧ (s.slot 0).ctl.state = .restoring ∧ p.2.wf = true
        ∧ (s.slot 0).store.outstanding = p.1
        ∧ ∀ o ∈ [Outstanding.mk 6 9, ⟨7, 9⟩], p.1 = some o →
            o.tag ≠ p.2.tag ∨ (p.2.status = .success ∧ (p.2.data ≠ [] ∨ p.2.final = false)) := by decide

/-- A slot that meets each of the six kinds of event that weigh; its score is open. -/
def weighty (st : SlotState) (score : Nat) (entries : List Entry) (drain : Nat) (r : Request) : State :=
  let s := part st fun sl =>
    { sl with
      ctl.score := score, entries := entries, policy.drain := drain, chan.hold := some (held r)
      permit.windows := sl.permit.windows.set 1 (some ⟨0x10, 0x11⟩) }
  { s with poolWait := [0] }

/-- The first entry with tag 2 is due, and a RETRY does not fit it; tag 9 is a stray; the write lies outside the window. -/
theorem test_meets_ThresholdsMoveTheSlot :
    (∀ st ∈ [SlotState.online, .suspect], ∀ entries ∈ [[], [pend 2 .memRead]], ∀ drain ∈ [0, 1000], ∀ r ∈ [read 1, note 1],
        let s := weighty st 100 entries drain r
        s.porHeld = false ∧ (s.slot 0).serving ∧ (s.slot 0).chan.linkUp = true
          ∧ (∀ e ∈ (s.slot 0).entries, e.tag ≠ (one 9).tag) ∧ (s.slot 0).chan.hold = some (held r) ∧ (s.slot 0).cardClear)
      ∧ (held (read 1)).deadline = State.reset.now ∧ (pend 2 .memRead).deadline = State.reset.now
      ∧ (one 9).wf = true ∧ (Request.mk 1 (.memWrite 0x10000000 [1, 2])).wf = true
      ∧ (weighty .online 0 [] 0 (read 1)).permitCheck 0 0x10000000 2 = some .outside
      ∧ (Completion.bare 2 .retry).wf = true ∧ (pend 2 .memRead).tag = 2 :=
  ⟨by decide, by decide⟩

/-- The weights after reset, each to the fence threshold 128, to the warn threshold 64, and from 0 to below half of it. -/
theorem test_meets_ThresholdsMoveTheSlot_scores :
    let p := State.reset.scorer
    (∀ w ∈ [p.stray, p.malformed, p.linkDown, p.timeout, p.errant], w ≠ 0 ∧ p.fence ≤ min (128 - w + w) 255
        ∧ min (64 - w + w) 255 < p.fence ∧ p.warn ≤ min (64 - w + w) 255)
      ∧ min (0 + p.stray) 255 < p.warn / 2 ∧ p.quietAt .online (min (0 + p.stray) 255) := by decide

theorem test_meets_ReplayWritesFollowOneAnother :
    let s := part .restoring fun sl =>
      { sl with
        store.sequence := [img 4, img 1], store.cursor := some 0, store.outstanding := some ⟨7, 100⟩
        store.resendTimer := some 0 }
    s.porHeld = false ∧ (s.slot 0).ctl.state = .restoring ∧ (s.slot 0).chan.linkUp = true
      ∧ (s.slot 0).store.outstanding = some ⟨7, 100⟩ ∧ (s.slot 0).store.cursor = some 0
      ∧ (s.slot 0).store.sequence[0 + 1]? = some (img 1) ∧ (s.slot 0).store.resendTimer = some s.now
      ∧ (s.slot 0).store.sequence[0]? = some (img 4) := by decide

theorem test_meets_LastReplayWriteRestores :
    ∀ origin ∈ [Origin.recovery, .upstream, .bringUp], ∀ ghost ∈ [true, false], ∀ h ∈ [none, some (held (read 5))],
      ∀ l ∈ [[img 4], []],
      let s := part .restoring fun sl =>
        { sl with
          store.sequence := l, store.cursor := some 0, store.outstanding := some ⟨7, 100⟩
          ctl.origin := some origin, outbound.tags := [⟨3, ghost⟩], chan.hold := h }
      s.porHeld = false ∧ (s.slot 0).ctl.state = .restoring ∧ (s.slot 0).chan.linkUp = true
        ∧ (s.slot 0).store.outstanding = some ⟨7, 100⟩ ∧ (s.slot 0).store.cursor = some 0
        ∧ (s.slot 0).store.sequence.length ≤ 0 + 1 := by decide

/-- A clearing of the image, then a RETRY: the timer runs and nothing is left. -/
theorem test_meets_LastReplayWriteRestores_resend :
    let s := part .restoring fun sl => { sl with store.cursor := some 0, store.resendTimer := some 0 }
    s.porHeld = false ∧ (s.slot 0).ctl.state = .restoring ∧ (s.slot 0).store.cursor = some 0
      ∧ (s.slot 0).store.sequence.length ≤ 0 ∧ (s.slot 0).store.resendTimer = some s.now := by decide

theorem test_meets_CardRequestIsBlockedAtAClosedGate :
    let s := part .fencing id
    s.porHeld = false ∧ (s.slot 0).cardClear ∧ ¬ (s.slot 0).serving ∧ (read 1).wf = true ∧ (read 1).posted = false
      ∧ (note 1).wf = true ∧ (note 1).posted = true := by decide

/-- The last free place of the outbound set. -/
theorem test_meets_PassingCardRequestIsForwarded :
    let s := part .online fun sl =>
      { sl with outbound.tags := (List.range 31).map fun n => ⟨BitVec.ofNat 8 n, false⟩ }
    s.porHeld = false ∧ (s.slot 0).cardClear ∧ (s.slot 0).serving ∧ (read 99).wf = true
      ∧ s.permitCheck 0 0x10000000 2 = none ∧ (∀ t ∈ (s.slot 0).outbound.tags, t.tag ≠ (read 99).tag)
      ∧ (s.slot 0).outbound.tags.length < 32 ∧ (Request.mk 1 (.memWrite 0x10000000 [1, 2])).wf = true
      ∧ (note 1).wf = true := by decide +kernel

theorem test_meets_FailingCardRequestIsErrant :
    let s := part .suspect fun sl =>
      { sl with permit.windows := sl.permit.windows.set 1 (some ⟨0x10, 0x11⟩), ctl.score := 111 }
    let t : State := { s with deny := s.deny.set 1 (some ⟨0x10000, 0x10000⟩) }
    s.porHeld = false ∧ (s.slot 0).cardClear ∧ (s.slot 0).serving ∧ (read 1).wf = true
      ∧ (∀ t ∈ (s.slot 0).outbound.tags, t.tag ≠ (read 1).tag) ∧ (s.slot 0).outbound.tags.length < 32
      ∧ (Request.mk 1 (.memWrite 0x10000000 [1, 2])).wf = true ∧ s.permitCheck 0 0x10000000 2 = some .outside
      ∧ t.permitCheck 0 0x10000000 2 = some .denied := by decide

theorem test_meets_CardRequestIsTurnedBackOrHeld :
    let s := part .online fun sl => { sl with outbound.tags := [⟨3, true⟩, ⟨4, false⟩] }
    let full := part .online fun sl =>
      { sl with outbound.tags := (List.range 32).map fun n => ⟨BitVec.ofNat 8 n, false⟩ }
    let behind := part .online fun sl => { sl with chan.cardHold := some (read 3) }
    let queued := part .online fun sl => { sl with chan.cardWaiting := [read 3] }
    let down := part .online fun sl => { sl with chan.linkUp := false }
    (down.slot 0).chan.linkUp = false ∧ down.porHeld = false ∧ s.porHeld = false ∧ (s.slot 0).cardClear ∧ (s.slot 0).serving ∧ (read 3).wf = true
      ∧ (Request.mk 2 (.ioRead 5)).wf = true ∧ (Request.mk 2 (.ioWrite 5 15 0)).wf = true
      ∧ (Request.mk 2 (.cfgRead 0)).wf = true ∧ (Request.mk 2 (.cfgWrite 1 1 0)).wf = true
      ∧ (s.slot 0).outbound.tags = [] ++ ⟨3, true⟩ :: [⟨4, false⟩]
      ∧ (s.slot 0).outbound.tags = [⟨3, true⟩] ++ ⟨4, false⟩ :: [] ∧ (full.slot 0).cardClear ∧ (full.slot 0).serving
      ∧ (∀ t ∈ (full.slot 0).outbound.tags, t.tag ≠ (read 99).tag) ∧ 32 ≤ (full.slot 0).outbound.tags.length
      ∧ (behind.slot 0).chan.linkUp = true ∧ (behind.slot 0).chan.cardHold ≠ none
      ∧ (queued.slot 0).chan.cardWaiting ≠ [] := by decide +kernel

/-- In service and with the gate closed, with a card read held and without, and while the upstream value is IN-RESET. -/
theorem test_meets_HostCompletionMeetsTheOutboundSet :
    let at_ := fun (st : SlotState) (h : Option Request) => part st fun sl =>
      { sl with outbound := { tags := [⟨3, true⟩, ⟨4, false⟩], deadline := some 0 }, chan.cardHold := h }
    let reset := part .online fun sl => { sl with chan.inReset := true }
    (∀ st ∈ [SlotState.online, .isolated], ∀ h ∈ [none, some (read 3)], let s := at_ st h
      s.porHeld = false ∧ (s.slot 0).chan.inReset = false ∧ (s.slot 0).chan.cardHold = h
        ∧ (∀ t ∈ (s.slot 0).outbound.tags, t.tag ≠ (one 9).tag)
        ∧ (s.slot 0).outbound.tags = [] ++ ⟨(one 3).tag, true⟩ :: [⟨4, false⟩]
        ∧ (s.slot 0).outbound.tags = [⟨3, true⟩] ++ ⟨(one 4).tag, false⟩ :: []
        ∧ (s.slot 0).outbound.deadline = some s.now ∧ (st = .online → (s.slot 0).serving)
        ∧ (st = .isolated → ¬ (s.slot 0).serving))
      ∧ (∀ c ∈ [one 3, one 4, one 9], c.wf = true ∧ c.final = true ∧ ({ c with final := false } : Completion).wf = true)
      ∧ reset.porHeld = false ∧ (reset.slot 0).chan.inReset = true := by decide

/-- A held read whose tag is a ghost, while another tag leaves; one whose ghost leaves; the last of a full set; one the checks refuse. -/
theorem test_meets_HeldCardReadIsRetried :
    let at_ := fun (tags : List OutTag) (r : Request) => part .online fun sl =>
      { sl with outbound := { tags := tags, deadline := some 0 }, chan.cardHold := some r }
    let s := at_ [⟨3, true⟩, ⟨4, false⟩] (read 3)
    let full := at_ ((List.range 33).map fun n => ⟨BitVec.ofNat 8 n, false⟩) (read 99)
    let denied : State := { s with deny := s.deny.set 1 (some ⟨0x10000, 0x10000⟩) }
    s.porHeld = false ∧ (s.slot 0).serving ∧ (s.slot 0).chan.cardHold = some (read 3)
      ∧ (read 3).kind = .memRead 0x10000000 2 ∧ (s.slot 0).chan.inReset = false ∧ (one 4).wf = true ∧ (one 4).final = true
      ∧ (s.slot 0).outbound.tags = [⟨3, true⟩] ++ ⟨(one 4).tag, false⟩ :: []
      ∧ ((s.slot 0).outbound.tags.filter fun t => t.tag ≠ (one 4).tag) = [] ++ ⟨3, true⟩ :: []
      ∧ (∀ t ∈ (s.slot 0).outbound.tags.filter fun t => t.tag ≠ (one 3).tag, t.tag ≠ 3)
      ∧ (∀ t ∈ (s.slot 0).outbound.tags.filter fun t => t.ghost = false, t.tag ≠ 3)
      ∧ (s.slot 0).outbound.deadline = some s.now ∧ s.permitCheck 0 0x10000000 2 = none
      ∧ denied.permitCheck 0 0x10000000 2 = some .denied
      ∧ 32 ≤ ((full.slot 0).outbound.tags.filter fun t => t.tag ≠ (one 4).tag).length
      ∧ (∀ t ∈ (full.slot 0).outbound.tags.filter fun t => t.tag ≠ (one 4).tag, t.tag ≠ 99) := by decide +kernel

theorem test_meets_CardLinkEventsInService :
    let closed := part .off id
    let s := part .suspect fun sl => { sl with ctl.score := 63 }
    let waits := fun r : Request => part .online fun sl => { sl with chan.hold := some (held r) }
    closed.porHeld = false ∧ ¬ (closed.slot 0).serving ∧ (closed.slot 0).ctl.state ≠ .restoring
      ∧ (closed.slot 0).ctl.state ≠ .training ∧ s.porHeld = false ∧ (s.slot 0).serving
      ∧ ∀ r ∈ [note 1, read 1], ((waits r).slot 0).serving ∧ ((waits r).slot 0).chan.hold = some (held r) := by decide

theorem test_meets_UpstreamResetForgetsTheSlot :
    let closed := part .restoring fun sl => { sl with store.outstanding := some ⟨1, 5⟩ }
    let idle := part .restoring fun sl => { sl with store.resendTimer := some 5 }
    let at_ := fun st => ({ part st fun sl => { sl with entries := [pend 1 .memRead] } with poolWait := [0] } : State)
    let back := part .resetting fun sl => { sl with chan.inReset := true, ctl.pulseTimer := .awaitingRelease }
    closed.porHeld = false ∧ ¬ (closed.slot 0).serving ∧ (closed.slot 0).ctl.state ≠ .fencing
      ∧ (closed.slot 0).store.outstanding ≠ none ∧ closed.poolWait = []
      ∧ (idle.slot 0).ctl.state = .restoring ∧ (idle.slot 0).store.outstanding = none ∧ idle.poolWait = []
      ∧ (∀ st ∈ [SlotState.online, .fencing], let s := at_ st
          s.porHeld = false ∧ (s.slot 0).ctl.state = st ∧ ∀ j ∈ s.poolWait, j = 0)
      ∧ (back.slot 0).chan.inReset = true ∧ back.porHeld = false ∧ (closed.slot 0).chan.inReset = false := by decide

theorem test_meets_LinkGraceAndCalertFence :
    let at_ := fun (entries : List Entry) (drain : Nat) => part .online fun sl =>
      { sl with entries := entries, policy.drain := drain, ctl.graceTimer := some 0 }
    let closed := part .off id
    let asserted := part .online fun sl => { sl with pins.calert := true }
    (∀ entries ∈ [[], [pend 1 .memRead]], ∀ drain ∈ [0, 1000], let s := at_ entries drain
        s.porHeld = false ∧ (s.slot 0).serving ∧ (s.slot 0).ctl.graceTimer = some s.now
          ∧ (s.slot 0).pins.calert = false ∧ (s.slot 0).policy.calertEnable = true)
      ∧ ¬ (closed.slot 0).serving ∧ (asserted.slot 0).pins.calert = true := by decide

/-- A slot whose link grace time ends with the two holds as given. -/
def holding (h : Option Held) (r : Option Request) : State :=
  part .online fun sl =>
    { sl with entries := [pend 1 .memRead], ctl.graceTimer := some 0, chan.hold := h, chan.cardHold := r }

/-- A request of every kind, with a tag that is pending (1) and with one that is not (2). -/
theorem test_meets_FenceEmptiesTheHolds :
    let kinds : List TxKind :=
      [.memRead 0 1, .memWrite 0 [1], .ioRead 0, .ioWrite 0 1 1, .cfgRead 0, .cfgWrite 1 1 1, .message]
    let restoring := part .restoring fun sl => { sl with ctl.restoreTimer := some 0, chan.hold := some (held (read 1)) }
    (∀ r ∈ [none, some (read 3), some (note 3)], let s := holding none r
        (s.slot 0).chan.hold = none ∧ (s.slot 0).chan.cardHold = r)
      ∧ (∀ k ∈ kinds, ∀ tag ∈ [(1 : Tag), 2], let s := holding (some (held ⟨tag, k⟩)) none
          s.porHeld = false ∧ (s.slot 0).serving ∧ (s.slot 0).ctl.graceTimer = some s.now ∧ (s.slot 0).entries ≠ []
            ∧ (s.slot 0).policy.drain ≠ 0 ∧ (s.slot 0).chan.hold = some (held ⟨tag, k⟩)
            ∧ (s.slot 0).entries.map (fun e => e.tag) = [1])
      ∧ restoring.porHeld = false ∧ (restoring.slot 0).ctl.state = .restoring
      ∧ (restoring.slot 0).chan.hold = some (held (read 1)) ∧ (restoring.slot 0).ctl.restoreTimer = some restoring.now
      ∧ restoring.linkReady ∧ (restoring.slot 0).pins.mode = .live := by decide

theorem test_meets_DrainExpirySweepsAndLeaves :
    let at_ := fun (d : Disposition) (p : PolicyChoice) => part .fencing fun sl =>
      { sl with ctl.drainTimer := some 0, ctl.disposition := some d, policy.policy := p, entries := [pend 1 .memRead] }
    ∀ d ∈ [Disposition.off, .recover], ∀ p ∈ [PolicyChoice.auto, .ask, .hold], let s := at_ d p
      s.porHeld = false ∧ (s.slot 0).ctl.state = .fencing ∧ (s.slot 0).ctl.drainTimer = some s.now ∧ (∀ j ∈ s.poolWait, j = 0)
        ∧ (s.slot 0).ctl.disposition = some d ∧ (s.slot 0).policy.policy = p := by decide

theorem test_meets_DecisionExpiryTakesTheLapseAction :
    let at_ := fun (a : LapseAction) (k : ResetKind) => part .isolated fun sl =>
      { sl with ctl.decisionTimer := .running 0, policy.lapse := a, policy.firstKind := k }
    ∀ a ∈ [LapseAction.recover, .quarantine], ∀ k ∈ [ResetKind.warm, .cold], let s := at_ a k
      s.porHeld = false ∧ (s.slot 0).ctl.state = .isolated ∧ (s.slot 0).ctl.decisionTimer = .running s.now
        ∧ (s.slot 0).policy.lapse = a ∧ (s.slot 0).policy.firstKind = k := by decide

/-- The codes on both sides of R93's thresholds: 249 and 250 steps of 4 mV, 299 and 300 steps of 1 mV. -/
theorem test_meets_DischargingEnds :
    let at_ := fun (st : SlotState) (v w : Nat) (n : Fin 24) (p : Bool) (g : Target) =>
      ({ (part st fun sl =>
          { sl with
            rails.v12 := some (rail v), rails.v33 := some (rail w), ctl.present := p, ctl.target := some g
            ctl.minOffTimer := some 0, ctl.minOffElapsed := true, ctl.dischargeTimer := some 0 }) with
          monitor := { channel := n, convEnd := some 0, discard := false, afterOff := true } } : State)
    (∀ p ∈ [true, false], ∀ g ∈ [Target.off, .bringUp], ∀ n ∈ [(0 : Fin 24), 1], let s := at_ .discharging 249 299 n p g
        s.porHeld = false ∧ (s.slot 0).ctl.minOffTimer = some s.now
          ∧ s.monitor.convEnd = some s.now ∧ s.monitor.discard = false ∧ s.monitor.channel = n
          ∧ (s.slot 0).ctl.state = .discharging ∧ (s.slot 0).ctl.target = some g ∧ (s.slot 0).ctl.present = p
          ∧ (s.slot 0).ctl.dischargeTimer = some s.now ∧ (s.slot 0).rested = true)
      ∧ ((at_ .discharging 250 299 0 true .off).slot 0).rested = false
      ∧ ((at_ .discharging 249 300 0 true .off).slot 0).rested = false
      ∧ ((at_ .off 249 299 0 true .off).slot 0).ctl.state ≠ .discharging
      ∧ 4 * railCode ⟨997, 0⟩ 4 < 1000 ∧ railCode ⟨299, 0⟩ 1 < 300 := by decide

/-- The ends of R99's windows: 2750 and 3250 steps of 4 mV, 3000 and 3600 steps of 1 mV. -/
theorem test_meets_AttemptGoesThroughItsStages :
    (∀ v ∈ [2750, 3250], ∀ w ∈ [3000, 3600],
        let s := part .ramping fun sl =>
          { sl with rails.v12 := some (rail v), rails.v33 := some (rail w), ctl.rampTimer := some 0 }
        s.porHeld = false ∧ (s.slot 0).ctl.state = .ramping ∧ (s.slot 0).ctl.rampTimer = some s.now
          ∧ (s.slot 0).rails.v12 = some (rail v) ∧ (rail v).mark = true ∧ 11000 ≤ 4 * (rail v).code
          ∧ 4 * (rail v).code ≤ 13000 ∧ (s.slot 0).rails.v33 = some (rail w) ∧ 3000 ≤ (rail w).code
          ∧ (rail w).code ≤ 3600)
      ∧ ((part .resetting fun sl => { sl with ctl.pulseTimer := .running 0 }).slot 0).ctl.pulseTimer = .running State.reset.now
      ∧ ([img 1, img 4].filter fun x => x.offset ≠ 1) ++ ([img 1, img 4].filter fun x => x.offset = 1) =
          img 4 :: [img 1]
      ∧ ((part .training id).slot 0).ctl.state = .training ∧ ((part .training id).slot 0).store.entries = [] := by decide

theorem test_meets_AttemptFailureRetriesOrQuarantines :
    let at_ := fun (st : SlotState) (n : Nat) => part st fun sl =>
      { sl with
        ctl.attempts := n, ctl.trainingTimer := some 0, ctl.restoreTimer := some 0, ctl.rampTimer := some 0
        store.outstanding := some ⟨7, 0⟩, rails.v12 := some (rail 2749), rails.v33 := some (rail 3300) }
    (∀ st ∈ [SlotState.training, .restoring, .ramping], ∀ n ∈ [2, 3], let s := at_ st n
        s.porHeld = false ∧ (s.slot 0).ctl.state = st ∧ (s.slot 0).ctl.trainingTimer = some s.now
          ∧ (s.slot 0).ctl.restoreTimer = some s.now ∧ (s.slot 0).ctl.rampTimer = some s.now
          ∧ (s.slot 0).store.outstanding = some ⟨7, s.now⟩ ∧ (s.slot 0).chan.linkUp = true ∧ ¬ 11000 ≤ 4 * (rail 2749).code)
      ∧ (∀ status ∈ [CplStatus.unsupported, .abort], (Completion.bare 7 status).wf = true)
      ∧ ((at_ .training 2).slot 0).ctl.attempts < ((at_ .training 2).slot 0).policy.maxAttempts
      ∧ ((at_ .training 3).slot 0).policy.maxAttempts ≤ ((at_ .training 3).slot 0).ctl.attempts := by decide

/-- A slot at a decay event with the scores and thresholds as given; slot 1 stands beside it in SUSPECT with `other`. -/
def decaying (st : SlotState) (score other warn fence : Nat) : State :=
  let s := (part st fun sl => { sl with ctl.score := score }).modSlot 1 fun sl => { sl with ctl.state := .suspect, ctl.score := other }
  { s with scorer.decayTimer := some 0, scorer.warn := warn, scorer.fence := fence }

/-- Slot `j` is not moved by the decay. -/
abbrev still (s : State) (j : SlotId) : Prop :=
  (s.slot j).serving → s.scorer.quietAt (s.slot j).ctl.state ((s.slot j).ctl.score * 3 / 4)

/-- A score of 42 decays to 31, the last below half of 64; one of 43 decays to 32. With the thresholds at 20 and 40, a score of 53 decays
to 39 and moves an ONLINE slot, and one of 54 decays to 40 and fences it; slot 1 stands still at 43 or 14, and acts at 10. -/
theorem test_meets_DecayEventDecaysEveryScore :
    (∀ j, still (decaying .suspect 43 43 64 128) j)
      ∧ (∀ s ∈ [decaying .suspect 42 43 64 128, decaying .online 53 14 20 40, decaying .online 54 14 20 40,
            decaying .suspect 54 14 20 40],
          s.porHeld = false ∧ s.scorer.decayTimer = some s.now ∧ (∀ j, j ≠ 0 → still s j) ∧ ¬ still s 0)
      ∧ 42 * 3 / 4 < 64 / 2 ∧ 53 * 3 / 4 < 40 ∧ 40 ≤ 54 * 3 / 4
      ∧ (decaying .suspect 42 10 64 128).porHeld = false
      ∧ ∀ j ∈ [(0 : SlotId), 1], ¬ still (decaying .suspect 42 10 64 128) j :=
  ⟨by decide +kernel, by decide +kernel, by decide +kernel⟩

theorem test_meets_PresenceIsDebouncedAndDelivered :
    let at_ := fun (st : SlotState) (auto : Bool) => part st fun sl =>
      { sl with pins.prsnt := true, pins.debounce := some 0, pins.startUp := false, policy.autoPower := auto }
    let both := ((part .empty fun sl => { sl with pins.debounce := some 0, pins.startUp := true }).modSlot 1
      fun sl => { sl with pins.debounce := some 0, pins.startUp := true, pins.prsnt := true })
    (∀ st ∈ [SlotState.empty, .off], ∀ auto ∈ [true, false], let s := at_ st auto
        s.porHeld = false ∧ (s.slot 0).pins.debounce = some s.now ∧ (s.slot 0).pins.startUp = false
          ∧ (s.slot 0).pins.prsnt = true ∧ (s.slot 0).ctl.state = st ∧ (s.slot 0).policy.autoPower = auto
          ∧ (s.slot 0).pins.mode = .live)
      ∧ (both.slot 1).pins.debounce = some both.now ∧ (both.slot 1).pins.startUp = true
      ∧ (0 : SlotId) < 1 ∧ (both.slot 0).pins.startUp = true ∧ (both.slot 0).pins.debounce = some both.now
      ∧ (after (exec .powerOnReset State.reset)).porHeld = true := by decide +kernel

/-- Every state a loss finds a slot in; in POWER_WAIT the slot stands at the queue's head. -/
theorem test_meets_LossActsByState :
    let at_ := fun st : SlotState =>
      ({ (part st fun sl =>
          { sl with pins.delivered := true, pins.debounce := some 0, pins.startUp := false, ctl.present := true }) with
          arbiter.queue := if st = .powerWait then [⟨0, 50⟩, ⟨2, 50⟩] else [⟨2, 50⟩] } : State)
    ∀ st ∈ [SlotState.empty, .off, .online, .suspect, .fencing, .isolated, .quarantined, .discharging, .powerWait, .ramping,
        .resetting, .training, .restoring], let s := at_ st
      s.porHeld = false ∧ (s.slot 0).pins.debounce = some s.now ∧ (s.slot 0).pins.startUp = false
        ∧ (s.slot 0).pins.prsnt = false ∧ (s.slot 0).ctl.state = st := by decide

/-- A limit of 6,250 mA is 1,250 steps. -/
theorem test_meets_ConversionEndKeepsTheResult :
    let at_ := fun (n : Fin 24) (d : Bool) =>
      ({ part .online id with monitor := { channel := n, convEnd := some 0, discard := d, afterOff := true } } : State)
    (∀ n ∈ [(0, 0), (1, 1), (2, 2)], ∀ d ∈ [true, false], let s := at_ n.1 d
        s.porHeld = false ∧ s.monitor.convEnd = some s.now ∧ s.monitor.channel.val = 3 * (0 : SlotId).val + n.2 ∧ n.2 < 3
          ∧ s.monitor.discard = d ∧ (s.slot 0).rails.runCount = 0 ∧ (s.slot 0).ctl.state ≠ .discharging
          ∧ (s.slot 0).pwren = true)
      ∧ 5 * railCode ⟨6252, 0⟩ 5 ≤ (State.reset.slot 0).policy.currentLimit
      ∧ (State.reset.slot 0).policy.currentLimit < 5 * railCode ⟨6253, 0⟩ 5
      ∧ ((part .off id).slot 0).pwren = false := by decide +kernel

/-- Every state with its PWREN line on, by its drive in LIVE or by the held image in HOLD. -/
theorem test_meets_OvercurrentActsByState :
    let at_ := fun (st : SlotState) (m : PinMode) =>
      ({ (part st fun sl =>
          { sl with pins.mode := m, pins.held := ⟨true, true, false, .off⟩, rails.runCount := 1 }) with
          monitor := { channel := 2, convEnd := some 0, discard := false, afterOff := true } } : State)
    let ok := fun (s : State) (st : SlotState) => s.porHeld = false ∧ s.monitor.convEnd = some s.now
      ∧ s.monitor.channel.val = 3 * (0 : SlotId).val + 2 ∧ s.monitor.discard = false ∧ (s.slot 0).pwren = true
      ∧ (s.slot 0).rails.runCount ≠ 0 ∧ (s.slot 0).ctl.state = st
    (∀ st ∈ [SlotState.online, .suspect, .fencing, .isolated, .ramping, .resetting, .training, .restoring], ok (at_ st .live) st)
      ∧ (∀ st ∈ [SlotState.isolated, .empty, .off, .quarantined], ok (at_ st .hold) st)
      ∧ (State.reset.slot 0).policy.currentLimit < 5 * railCode ⟨6253, 0⟩ 5
      ∧ min (2 * (State.reset.slot 0).policy.currentLimit) 20000 < 5 * railCode ⟨12503, 0⟩ 5 := by decide +kernel

theorem test_meets_OutputsFollowStateAndMode :
    (∀ st ∈ [SlotState.empty, .off, .online, .suspect, .fencing, .isolated, .quarantined, .discharging, .powerWait, .ramping,
        .resetting, .training, .restoring], ∀ m ∈ [PinMode.live, .hold, .float], ∀ cut ∈ [true, false],
      let sl := (part st fun sl => { sl with pins.mode := m, ctl.powerCut := cut }).slot 0
      sl.ctl.state = st ∧ sl.pins.mode = m ∧ sl.ctl.powerCut = cut)
    ∧ let s := part .suspect fun sl => { sl with pins.blinkTimer := some 0 }
      s.porHeld = false ∧ (s.slot 0).pins.blinkTimer = some s.now ∧ ({ s with porHeld := true } : State).porHeld = true := by
  decide +kernel

theorem test_meets_RequestRoundTrip :
    (BmcRequest.filterSet (List.replicate 14 (0, 1023))).wf = true ∧ (BmcRequest.winSet []).wf = true := by decide

theorem test_meets_CharactersMakeTheRequest :
    Instr.request (.fence 3) = some (3, .fence) ∧ (Instr.fence 3).wf = true
      ∧ FrameOf (encodeRequest 3 .fence) [0xA5, 0x02, 0x04, 0x03, 0xF7]
      ∧ State.reset.link.phase = .hunt ∧ State.reset.link.frameLen = 0 ∧ State.reset.link.payload = []
      ∧ State.reset.link.gapTimer = none := ⟨rfl, rfl, ⟨0xF7, by decide⟩, rfl, rfl, rfl, rfl⟩

theorem test_meets_CharactersAreAssembledOrDiscarded :
    let at_ := fun ph : Assembly =>
      ({ State.reset with link.phase := ph, link.frameLen := 2, link.payload := [4, 3], link.gapTimer := some 0 } : State)
    (∀ ph ∈ [Assembly.hunt, .length, .payload, .check], let s := at_ ph
        s.porHeld = false ∧ s.cresetHeld = false ∧ s.link.phase = ph ∧ s.link.gapTimer = some s.now)
      ∧ (0x5A : Byte) ≠ 0xA5 ∧ 1 ≤ (1 : Byte).toNat ∧ (60 : Byte).toNat ≤ 60 ∧ 60 < (61 : Byte).toNat
      ∧ ((at_ .check).link.frameLen + ((at_ .check).link.payload.map fun b => b.toNat).sum + (0xF6 : Byte).toNat) % 256 ≠ 0 := by
  decide

theorem test_meets_RepliesAreSent :
    let at_ := fun (p : InProcess) (w : Option Waiting) =>
      ({ State.reset with link.inProcess := some p, link.waiting := w, elapsed := 10 } : State)
    let frame : Waiting := { payload := encodeRequest 3 .fence, frameEnd := 9 }
    (at_ ⟨[], false, false, 5760, 0⟩ none).porHeld = false ∧ 5760 ≤ (at_ ⟨[], false, false, 5760, 0⟩ none).elapsed * 576
      ∧ (∀ w ∈ [none, some frame], ∀ reset ∈ [true, false], let s := at_ ⟨[0x84, 0, 2], reset, true, 0, 5760⟩ w
          s.link.inProcess = some ⟨[0x84, 0, 2], reset, true, 0, 5760⟩ ∧ s.link.waiting = w)
      ∧ Instr.request (.fence 3) = some (3, .fence) ∧ (Instr.fence 3).wf = true
      ∧ (∀ payload ∈ [[(0 : Byte)], [0x17, 3], [4], [4, 3, 0]],
          let s := at_ ⟨[0x84, 0, 2], false, true, 0, 5760⟩ (some { payload := payload, frameEnd := 9 })
          s.cresetHeld = false ∧ s.link.waiting = some { payload := payload, frameEnd := 9 } ∧ 1 ≤ payload.length
            ∧ payload.length ≤ 60)
      ∧ lengthAllowed [4] = false ∧ lengthAllowed [4, 3, 0] = false := by decide

/-- A busy link with and without a waiting request; the first slot byte past the slots, and the last that is not 0xFF. -/
theorem test_meets_BusyOrRefusedRequests :
    let s : State := { State.reset with link.inProcess := some ⟨[], false, true, 0, 0⟩ }
    let t : State := { s with link.waiting := some ⟨[], 0⟩ }
    Instr.request (.quar 0) = some (0, .quar) ∧ (Instr.quar 0).wf = true ∧ s.porHeld = false
      ∧ ({ s with cresetHeld := true } : State).cresetHeld = true ∧ s.cresetHeld = false ∧ s.link.inProcess ≠ none
      ∧ s.link.waiting = none ∧ t.link.inProcess ≠ none ∧ t.link.waiting ≠ none
      ∧ Instr.request (.quar 8) = some (8, .quar) ∧ (Instr.quar 8).wf = true ∧ 7 < (8 : Byte).toNat
      ∧ BmcRequest.quar.code ∉ [0x01#8, 0x0A#8, 0x0B#8, 0x0C#8, 0x10#8, 0x15#8, 0x16#8]
      ∧ Instr.request (.partReset 0xFE) = some (0xFE, .partReset) ∧ (0xFE : Byte) ≠ 0xFF
      ∧ BmcRequest.partReset.code ∈ [0x01#8, 0x0A#8, 0x0B#8, 0x0C#8, 0x10#8, 0x15#8, 0x16#8] ∧ State.reset.linkReady := by
  decide

/-- The codes below and above the request codes; payloads of one byte, of one too many, and with a count that asks for more. -/
theorem test_meets_BusyOrRefusedRequests_replies :
    (∀ p ∈ [[(0 : Byte)], [0x17, 3], [0xFF, 3], [4], [4, 3, 0], [9, 3, 1]], 1 ≤ p.length ∧ p.length ≤ 60
        ∧ ∃ b : Fin 256, let check : Byte := BitVec.ofNat 8 b.val
          (p.length + (p.map fun x => x.toNat).sum + check.toNat) % 256 = 0)
      ∧ (∀ p ∈ [[(4 : Byte)], [4, 3, 0], [9, 3, 1]], (p.headD 0) ≠ 0 ∧ (p.headD 0).toNat ≤ 0x16 ∧ lengthAllowed p = false)
      ∧ 0x16 < ([(0x17 : Byte), 3].headD 0).toNat
      ∧ State.reset.linkReady ∧ State.reset.link.phase = .hunt ∧ State.reset.link.frameLen = 0
      ∧ State.reset.link.payload = [] ∧ State.reset.link.gapTimer = none := by decide +kernel

theorem test_meets_ReadingRequestsAnswer :
    let s := part .off fun sl => { sl with store.entries := [img 4] }
    s.linkReady ∧ (s.slot 0).store.entries[(0 : Byte).toNat]? = some (img 4)
      ∧ (s.slot 0).store.entries.length ≤ (1 : Byte).toNat
      ∧ (s.slot 0).drive = some ⟨false, false, true, .off⟩
      ∧ ((part .off fun sl => { sl with pins.mode := .float }).slot 0).pins.mode = .float
      ∧ s.mute = false ∧ ({ s with cresetHeld := true } : State).mute = true := by decide

/-- R198: ALERT# after a REPORT.TAKE with four records, and with five. -/
theorem test_alert_after_report_take :
    let at_ := fun n : Nat =>
      after (exec (.reportTake 0xFF) { State.reset with reports.records := List.replicate n (State.reset.note .attempt 0 none none) })
    (at_ 4).alert = false ∧ (at_ 5).alert = true := by decide +kernel

/-- A policy record as SLOT.SET carries it. -/
def record (policy maxAttempts : Byte) : RawPolicy :=
  { policy := policy, lapse := 0, decisionTime := 5000, firstKind := 0, maxAttempts := maxAttempts, quota := 24
    slotTimeout := 10000, drain := 1000, fill := 0, linkGrace := 5, resetPulse := 100, minOff := 100
    dischargeTimeout := 2000, ramp := 100, training := 1000, currentLimit := 6250, demand := 50, calertEnable := 1
    autoPower := 0 }

theorem test_meets_SettingRequestsSet :
    let waits := part .online fun sl => { sl with chan.hold := some (held (read 1)), policy.quota := 23 }
    State.reset.linkReady ∧ 2 < (record 3 3).policy.toNat ∧ (State.reset.slot 0).chan.hold = none
      ∧ (∀ r ∈ [record 2 5, record 0 3], ¬ 2 < r.policy.toNat ∧ ¬ 1 < r.lapse.toNat ∧ ¬ 1 < r.firstKind.toNat
          ∧ ¬ 1 < r.fill.toNat ∧ ¬ 1 < r.calertEnable.toNat ∧ ¬ 1 < r.autoPower.toNat)
      ∧ waits.linkReady ∧ (waits.slot 0).chan.hold = some (held (read 1))
      ∧ (waits.slot 0).policy.quota < (record 0 3).quota.toNat ∧ 0 ∉ waits.poolWait ∧ (waits.slot 0).serving
      ∧ (waits.slot 0).chan.linkUp = true
      ∧ (4 : BitVec 40).toNat < (5 : BitVec 40).toNat ∧ 2 ^ 36 ≤ (0x1000000000 : BitVec 40).toNat
      ∧ (4 : BitVec 40).toNat ≤ (0xFFFFFFFFF : BitVec 40).toNat ∧ (0xFFFFFFFFF : BitVec 40).toNat < 2 ^ 36
      ∧ 1023 < (1024 : BitVec 16).toNat ∧ (0 : BitVec 16).toNat ≤ (1023 : BitVec 16).toNat
      ∧ (1023 : BitVec 16).toNat ≤ 1023
      ∧ (64 : Byte).toNat ≤ (64 : Byte).toNat ∧ (64 : Byte).toNat < (65 : Byte).toNat := by decide

/-- A head above the budget, one that fits it exactly, and one whose rail partner is granted; another place waits behind. -/
theorem test_meets_BudgetSetRunsAGrantCheck :
    let at_ := fun (budget : Nat) (granted : List Place) =>
      ({ State.reset with arbiter := { budget := budget, queue := [⟨0, 50⟩, ⟨3, 10⟩], granted := granted } } : State)
    State.reset.linkReady ∧ State.reset.arbiter.queue = []
      ∧ (∀ s ∈ [at_ 49 [], at_ 50 [], at_ 200 [⟨1, 50⟩]], s.linkReady ∧ s.arbiter.queue = ⟨0, 50⟩ :: [⟨3, 10⟩]
          ∧ (∀ q ∈ [Place.mk 3 10], q.slot ≠ 0))
      ∧ (at_ 49 []).arbiter.budget < 50 ∧ (at_ 50 []).arbiter.admits ⟨0, 50⟩ ∧ partner 0 = 1
      ∧ ¬ (at_ 200 [⟨1, 50⟩]).arbiter.admits ⟨0, 50⟩ := by decide

theorem test_meets_ImageRequestsChangeTheImage :
    let s := part .off fun sl => { sl with store.entries := [img 4] }
    let full := part .off fun sl => { sl with store.entries := (List.range 48).map fun n => img (BitVec.ofNat 10 (n + 1)) }
    let idle := part .restoring fun sl => { sl with store.resendTimer := some 5 }
    let outstanding := part .restoring fun sl => { sl with store.outstanding := some ⟨1, 5⟩ }
    idle.linkReady ∧ (idle.slot 0).ctl.state = .restoring ∧ (idle.slot 0).store.outstanding = none
      ∧ (outstanding.slot 0).store.outstanding ≠ none
      ∧ s.linkReady ∧ ((part .online id).slot 0).ctl.state = .online ∧ (s.slot 0).ctl.state = .off
      ∧ ¬ (1 ≤ (0 : BitVec 16).toNat) ∧ ¬ ((1024 : BitVec 16).toNat ≤ 1023) ∧ ¬ (1 ≤ (0 : Byte).toNat)
      ∧ ¬ ((16 : Byte).toNat ≤ 15) ∧ (1 ≤ (1023 : BitVec 16).toNat ∧ (1023 : BitVec 16).toNat ≤ 1023)
      ∧ (∃ e ∈ (s.slot 0).store.entries, e.offset = 4) ∧ (∀ e ∈ (s.slot 0).store.entries, e.offset ≠ 1023)
      ∧ (s.slot 0).store.entries.length < 48 ∧ (∀ e ∈ (full.slot 0).store.entries, e.offset ≠ 1023)
      ∧ 48 ≤ (full.slot 0).store.entries.length := by decide +kernel

theorem test_meets_PinRequestsActOnThePins :
    let ask := part .isolated fun sl => { sl with ctl.isoPolicy := some .ask }
    State.reset.linkReady ∧ 2 < (3 : Byte).toNat ∧ (2 : Byte).toNat ≤ 2 ∧ ((part .online id).slot 0).pins.mode = .live
      ∧ ((part .quarantined id).slot 0).ctl.state = .quarantined ∧ ask.linkReady ∧ (ask.slot 0).ctl.state = .isolated
      ∧ (ask.slot 0).ctl.isoPolicy = some .ask ∧ 1 < (2 : Byte).toNat ∧ (1 : Byte).toNat ≤ 1 := by decide

/-- Every state, with what the clauses ask of it; in POWER_WAIT the slot stands at the queue's head. -/
theorem test_meets_MovingRequestsMoveTheSlot :
    let at_ := fun (st : SlotState) (m : PinMode) (p : Bool) =>
      ({ (part st fun sl => { sl with pins.mode := m, ctl.present := p }) with
          arbiter.queue := if st = .powerWait then [⟨0, 50⟩, ⟨2, 50⟩] else [⟨2, 50⟩] } : State)
    (∀ st ∈ [SlotState.empty, .off, .online, .suspect, .fencing, .isolated, .quarantined, .discharging, .powerWait, .ramping,
        .resetting, .training, .restoring], ∀ p ∈ [true, false], let s := at_ st .live p
      s.linkReady ∧ (s.slot 0).ctl.state = st ∧ (s.slot 0).pins.mode = .live
        ∧ (s.slot 0).ctl.present = p)
      ∧ ((at_ .off .hold true).slot 0).pins.mode ≠ .live ∧ 2 < (3 : Byte).toNat ∧ (2 : Byte).toNat ≤ 2 := by decide +kernel

end Sys2Proof.Tests
end

section
/-! Card requests: when CARD_REQUEST reaches its arrival, and what the arrival does at a closed gate (R3, R71). -/

namespace Sys2Proof.Machine

/-! ### CARD_REQUEST and its arrival -/

/-- A well-formed CARD_REQUEST acts on the part once POR# is released. -/
theorem exec_cardRequest {s : State} {r : Request} (i : SlotId) (hwf : r.wf = true) (hpor : s.porHeld = false) :
    exec (.cardRequest i r) s = .next (s.cardRequest i r) := by
  simp [exec, execCardRequest, State.running, hwf, hpor]

/-- R8: with the card link UP and nothing ahead of it, the request arrives at once. -/
theorem State.cardRequest_of_cardClear {s : State} {i : SlotId} (r : Request) (hclear : (s.slot i).cardClear) :
    s.cardRequest i r = s.cardArrive i r := by
  obtain ⟨hup, hhold, hwaiting⟩ := hclear
  simp [State.cardRequest, State.when, hup, hhold, hwaiting]

/-- R1, R3: the configuration and I/O kinds, which are turned back in every state, are all non-posted. -/
theorem Request.nonPosted_of_turnedBack {r : Request} (h : TxKind.turnedBack r.kind = true) : r.posted = false := by
  obtain ⟨tag, kind⟩ := r
  cases kind with
  | memRead | ioRead | ioWrite | cfgRead | cfgWrite => rfl
  | memWrite | message => simp [TxKind.turnedBack] at h

theorem State.toCard_eq_setSlot (s : State) (i : SlotId) (o : CardOut) :
    s.toCard i o = s.setSlot i ((s.slot i).tellsCard o) := rfl

/-! ### Blocking at a closed gate -/

theorem State.blockCard_of_posted {s : State} {r : Request} (i : SlotId) (h : r.posted = true) : s.blockCard i r = s := by
  simp [State.blockCard, h]

theorem State.blockCard_of_nonPosted {s : State} {r : Request} (i : SlotId) (h : r.posted = false) :
    s.blockCard i r = s.setSlot i ((s.slot i).tellsCard (.completion (Completion.bare r.tag .unsupported))) := by
  simp [State.blockCard, h, State.toCard_eq_setSlot]

/-- R71: at a closed gate every arriving card request is blocked; the answer R3 gives to a configuration or I/O request is that of a
blocked non-posted request. -/
theorem State.cardArrive_of_not_serving {s : State} {i : SlotId} (r : Request) (hclosed : ¬ (s.slot i).serving) :
    s.cardArrive i r = s.blockCard i r := by
  unfold State.cardArrive
  split
  next hback => rw [State.blockCard_of_nonPosted i (Request.nonPosted_of_turnedBack hback), State.toCard_eq_setSlot]
  next => simp [Slot.inService_of_not_serving hclosed]

theorem exec_cardRequest_of_not_serving {s : State} {i : SlotId} {r : Request} (hwf : r.wf = true) (hpor : s.porHeld = false)
    (hclear : (s.slot i).cardClear) (hclosed : ¬ (s.slot i).serving) :
    exec (.cardRequest i r) s = .next (s.blockCard i r) := by
  rw [exec_cardRequest i hwf hpor, State.cardRequest_of_cardClear r hclear, State.cardArrive_of_not_serving r hclosed]

/-- Settles O28: the request arrives at once, every arrival at a closed gate is a blocking, and blocking answers by class. -/
theorem cardRequestIsBlockedAtAClosedGate : Obligations.CardRequestIsBlockedAtAClosedGate := by
  intro s i r hwf hpor hclear hclosed
  rw [exec_cardRequest_of_not_serving hwf hpor hclear hclosed]
  constructor
  · intro hnonPosted
    rw [State.blockCard_of_nonPosted i hnonPosted]
  · intro hposted
    rw [State.blockCard_of_posted i hposted]

end Sys2Proof.Machine
end

section
/-! The restore image: the bytes a mask names, a merge in place, and a new offset (R114, R118, R119). -/

namespace Sys2Proof.Machine

/-! ### The bytes of a masked dword -/

/-- R114: bit n of the mask stands for byte n of the dword. -/
@[simp] theorem extractByte_maskBits (m : ByteMask) (b : Fin 4) :
    (maskBits m).extractLsb' (8 * b.val) 8 = if m.getLsbD b.val = true then 0xFF#8 else 0x00#8 := by
  revert m b
  decide

theorem extractByte_not (d : Dword) (b : Fin 4) :
    (~~~d).extractLsb' (8 * b.val) 8 = ~~~(d.extractLsb' (8 * b.val) 8) := by
  ext j hj
  have hbit : 8 * b.val + j < 32 := by omega
  simp [hbit]

/-- A dword masked to the bytes a mask names has 0x00 in the others. -/
theorem extractByte_and_maskBits (v : Dword) (m : ByteMask) (b : Fin 4) :
    (v &&& maskBits m).extractLsb' (8 * b.val) 8 =
      if m.getLsbD b.val = true then v.extractLsb' (8 * b.val) 8 else 0x00#8 := by
  rw [BitVec.extractLsb'_and, extractByte_maskBits]
  split
  next => exact BitVec.and_allOnes
  next => exact BitVec.and_zero

theorem extractByte_and_not_maskBits (v : Dword) (m : ByteMask) (b : Fin 4) :
    (v &&& ~~~(maskBits m)).extractLsb' (8 * b.val) 8 =
      if m.getLsbD b.val = true then 0x00#8 else v.extractLsb' (8 * b.val) 8 := by
  rw [BitVec.extractLsb'_and, extractByte_not, extractByte_maskBits]
  split
  next => exact BitVec.and_zero
  next => exact BitVec.and_allOnes

/-! ### A merge -/

@[simp] theorem ImgEntry.merge_offset (e : ImgEntry) (v : Dword) (m : ByteMask) : (e.merge v m).offset = e.offset := rfl

@[simp] theorem ImgEntry.merge_mask (e : ImgEntry) (v : Dword) (m : ByteMask) : (e.merge v m).mask = e.mask ||| m := rfl

/-- R118: a merge takes the bytes its own mask names from the write and keeps the others. -/
theorem ImgEntry.extractByte_merge (e : ImgEntry) (v : Dword) (m : ByteMask) (b : Fin 4) :
    (e.merge v m).value.extractLsb' (8 * b.val) 8 =
      if m.getLsbD b.val = true then v.extractLsb' (8 * b.val) 8 else e.value.extractLsb' (8 * b.val) 8 := by
  rw [ImgEntry.merge, BitVec.extractLsb'_or, extractByte_and_not_maskBits, extractByte_and_maskBits]
  split
  next => exact BitVec.zero_or
  next => exact BitVec.or_zero

@[simp] theorem ImageStore.length_mergeAt (st : ImageStore) (o : Offset) (v : Dword) (m : ByteMask) :
    (st.mergeAt o v m).entries.length = st.entries.length :=
  List.length_map _

theorem ImageStore.mergeAt_getElem?_of_ne {st : ImageStore} {o : Offset} (v : Dword) (m : ByteMask) {n : Nat} {e : ImgEntry}
    (he : st.entries[n]? = some e) (ho : e.offset ≠ o) : (st.mergeAt o v m).entries[n]? = some e := by
  simp [ImageStore.mergeAt, he, ho]

theorem ImageStore.mergeAt_getElem?_of_eq {st : ImageStore} {o : Offset} (v : Dword) (m : ByteMask) {n : Nat} {e : ImgEntry}
    (he : st.entries[n]? = some e) (ho : e.offset = o) : (st.mergeAt o v m).entries[n]? = some (e.merge v m) := by
  simp [ImageStore.mergeAt, he, ho]

/-- Settles O16: a merge goes entry by entry in place, and the merged entry's bytes are chosen by the write's mask. -/
theorem mergeReplacesTheNamedBytes : Obligations.MergeReplacesTheNamedBytes := by
  intro st o v m
  refine ⟨st.length_mergeAt o v m, fun n e he ho => ImageStore.mergeAt_getElem?_of_ne v m he ho, fun n e he ho => ?_⟩
  exact ⟨e.merge v m, ImageStore.mergeAt_getElem?_of_eq v m he ho, (e.merge_offset v m).trans ho, e.merge_mask v m,
    e.extractByte_merge v m⟩

/-! ### A new offset -/

theorem ImageStore.holds_eq_false_iff {st : ImageStore} {o : Offset} : st.holds o = false ↔ ∀ e ∈ st.entries, e.offset ≠ o := by
  simp [ImageStore.holds]

/-- R114: there is room below 48 entries. -/
theorem ImageStore.hasRoom_iff {st : ImageStore} : st.hasRoom = true ↔ st.entries.length < 48 := decide_eq_true_iff

/-- R117 cases 4 and 5, R122: a new offset that is neither 0 nor in the filter is appended, or left out with the mark set. -/
theorem ImageStore.record_of_new {st : ImageStore} {f : List Span} {o : Offset} (v : Dword) (m : ByteMask) (hzero : o ≠ 0)
    (hfilter : inFilter f o = false) (hnew : ∀ e ∈ st.entries, e.offset ≠ o) :
    st.record f o v m =
      if st.hasRoom = true then (st.append o v m, true) else ({ st with incomplete := true }, false) := by
  have hholds : ¬ st.holds o = true := Bool.eq_false_iff.1 (ImageStore.holds_eq_false_iff.2 hnew)
  rw [ImageStore.record, if_neg hzero, if_neg (Bool.eq_false_iff.1 hfilter), if_neg hholds]

/-- Settles O17: the two cases of a new offset are told apart by the room, and the appended value is the write's, masked. -/
theorem newOffsetIsAppendedWithRoom : Obligations.NewOffsetIsAppendedWithRoom := by
  intro st f o v m hzero hfilter hnew
  rw [ImageStore.record_of_new v m hzero hfilter hnew]
  constructor
  · intro hroom
    rw [if_pos (ImageStore.hasRoom_iff.2 hroom)]
    exact ⟨{ offset := o, value := v &&& maskBits m, mask := m }, rfl, rfl, rfl, extractByte_and_maskBits v m⟩
  · intro hfull
    have hnoRoom : ¬ st.hasRoom = true := by rw [ImageStore.hasRoom_iff]; omega
    rw [if_neg hnoRoom]

end Sys2Proof.Machine
end

section
/-! The permit check: what its two searches say of the places of a set of ranges, and its verdict case by case (R149, R151 to R153). -/

namespace Sys2Proof.Machine

/-! ### The places of a set of ranges -/

theorem mem_defined_iff {n : Nat} {places : Vector (Option Span) n} {r : Span} :
    r ∈ defined places ↔ ∃ k : Fin n, places[k] = some r := by
  simp [defined, Vector.mem_iff_getElem, Fin.exists_iff]

/-- R149: a defined range meets a test just when one of the places does; an undefined place meets none. -/
theorem any_defined_iff {n : Nat} {places : Vector (Option Span) n} {p : Span → Bool} :
    (defined places).any p = true ↔ ∃ k : Fin n, places[k].any p = true := by
  simp only [List.any_eq_true, mem_defined_iff, Option.any_eq_true]
  constructor
  · rintro ⟨r, ⟨k, hk⟩, hp⟩
    exact ⟨k, r, hk, hp⟩
  · rintro ⟨k, r, hk, hp⟩
    exact ⟨r, ⟨k, hk⟩, hp⟩

theorem defined_isEmpty_iff {n : Nat} {places : Vector (Option Span) n} :
    (defined places).isEmpty = true ↔ ∀ k : Fin n, places[k] = none := by
  simp only [List.isEmpty_iff, List.eq_nil_iff_forall_not_mem, mem_defined_iff, not_exists, Option.eq_none_iff_forall_ne_some]
  exact forall_comm

theorem Span.meets_eq (r : Span) (first last : Nat) : r.meets first last = decide (r.base ≤ last ∧ first ≤ r.limit) :=
  (Bool.decide_and _ _).symm

theorem Span.holds_eq (w : Span) (first last : Nat) : w.holds first last = decide (w.base ≤ first ∧ last ≤ w.limit) :=
  (Bool.decide_and _ _).symm

/-! ### The verdict, check by check -/

/-- R151: the top of the address space comes before the deny ranges and the windows. -/
theorem permitFailure_of_pastTop {addr : BitVec 48} {len : Nat} (deny windows : List Span)
    (htop : 2 ^ 48 - 1 < lastByte addr len) : permitFailure deny windows addr len = some .outside :=
  if_pos (by omega)

/-- R152: a deny range that is met decides before the windows are looked at. -/
theorem permitFailure_of_denied {deny : List Span} {addr : BitVec 48} {len : Nat} (windows : List Span)
    (htop : lastByte addr len ≤ 2 ^ 48 - 1)
    (hdeny : deny.any (fun r => r.meets (firstPage addr) (lastByte addr len / 4096)) = true) :
    permitFailure deny windows addr len = some .denied :=
  (if_neg (by omega)).trans (if_pos hdeny)

/-- R153: with no deny range met the windows decide. -/
theorem permitFailure_of_not_denied {deny : List Span} {addr : BitVec 48} {len : Nat} (windows : List Span)
    (htop : lastByte addr len ≤ 2 ^ 48 - 1)
    (hdeny : ¬ deny.any (fun r => r.meets (firstPage addr) (lastByte addr len / 4096)) = true) :
    permitFailure deny windows addr len =
      if windows.isEmpty = true ∨ windows.any (fun w => w.holds (firstPage addr) (lastByte addr len / 4096)) = true then none
      else some .outside := by
  simp only [permitFailure, if_neg hdeny, if_neg (show ¬ 2 ^ 48 ≤ lastByte addr len by omega), Bool.or_eq_true]

/-- Settles O19: the statement's tests of the places are the searches of the check, which are made in the statement's order. -/
theorem permitCheckDecides : Obligations.PermitCheckDecides := by
  intro s i addr len _ _ last first lastPage windows meets holds
  have hmeets : (defined s.deny).any (fun r => r.meets first lastPage) = true ↔ ∃ k, meets k := by
    simp only [Span.meets_eq]
    exact any_defined_iff
  have hholds : (defined windows).any (fun w => w.holds first lastPage) = true ↔ ∃ k, holds k := by
    simp only [Span.holds_eq]
    exact any_defined_iff
  refine ⟨permitFailure_of_pastTop _ _, fun htop => ⟨fun hdenied => ?_, fun hclear => ?_⟩⟩
  · exact permitFailure_of_denied _ htop (hmeets.2 hdenied)
  · have hverdict : s.permitCheck i addr len =
        if (∀ k : Fin 4, windows[k] = none) ∨ (∃ k, holds k) then none else some .outside := by
      simp only [← defined_isEmpty_iff, ← hholds]
      exact permitFailure_of_not_denied _ htop fun h => not_exists.2 hclear (hmeets.1 h)
    rw [hverdict]
    refine ⟨fun hpasses => if_pos hpasses, fun ⟨k, hdefined⟩ hnone => if_neg ?_⟩
    rintro (hall | hinside)
    · exact hdefined (hall k)
    · exact not_exists.2 hnone hinside

end Sys2Proof.Machine
end

section
/-! Card requests at an open gate: the way of a memory request or message to the permit checker (R7, R73), and what the checker forwards
(R154). -/

namespace Sys2Proof.Machine

/-! ### The way to the checker -/

theorem State.toHost_eq_setSlot (s : State) (i : SlotId) (o : HostOut) :
    s.toHost i o = s.setSlot i ((s.slot i).tellsHost o) := rfl

/-- R7: at an open gate a request that is not turned back in every state goes to the outbound set and the checker. -/
theorem exec_cardRequest_of_serving {s : State} {i : SlotId} {r : Request} (hwf : r.wf = true) (hpor : s.porHeld = false)
    (hclear : (s.slot i).cardClear) (hopen : (s.slot i).serving) (hkind : TxKind.turnedBack r.kind = false) :
    exec (.cardRequest i r) s = .next (s.cardOpen i r) := by
  rw [exec_cardRequest i hwf hpor, State.cardRequest_of_cardClear r hclear]
  simp [State.cardArrive, hkind, Slot.inService_of_serving hopen]

/-- R72: a posted request takes no place in the outbound set. -/
theorem State.cardOpen_of_posted {s : State} {r : Request} (i : SlotId) (h : r.posted = true) :
    s.cardOpen i r = s.throughChecker i r := if_pos h

theorem Outbound.lookup_eq_none {o : Outbound} {tag : Tag} (h : ∀ t ∈ o.tags, t.tag ≠ tag) : o.lookup tag = none := by
  simpa [Outbound.lookup] using h

/-- R73: a non-posted request whose tag is not held goes to the checker while the set has room. -/
theorem State.cardOpen_of_new {s : State} {i : SlotId} {r : Request} (hposted : r.posted = false)
    (hnew : ∀ t ∈ (s.slot i).outbound.tags, t.tag ≠ r.tag) (hroom : (s.slot i).outbound.tags.length < 32) :
    s.cardOpen i r = s.throughChecker i r := by
  have hcap : ¬ Config.outboundCap ≤ (s.slot i).outbound.tags.length := Nat.not_le.2 hroom
  simp [State.cardOpen, hposted, Outbound.lookup_eq_none hnew, hcap]

/-! ### What passes the checker -/

/-- R154: a passing read is forwarded and joins the outbound set. -/
theorem State.throughChecker_of_memRead {s : State} {i : SlotId} {r : Request} {a : BitVec 48} {n : Nat}
    (hkind : r.kind = .memRead a n) (hpass : s.permitCheck i a n = none) :
    s.throughChecker i r = s.setSlot i
      { (s.slot i).tellsHost (.request r) with outbound := (s.slot i).outbound.join r.tag } := by
  simp [State.throughChecker, hkind, hpass, State.toHost_eq_setSlot, State.modSlot, Slot.tellsHost]

/-- R154: a passing write is forwarded and joins nothing. -/
theorem State.throughChecker_of_memWrite {s : State} {i : SlotId} {r : Request} {a : BitVec 48} {d : List Dword}
    (hkind : r.kind = .memWrite a d) (hpass : s.permitCheck i a d.length = none) :
    s.throughChecker i r = s.setSlot i ((s.slot i).tellsHost (.request r)) := by
  simp [State.throughChecker, hkind, hpass, State.toHost_eq_setSlot]

/-- R154: a message has no span to check. -/
theorem State.throughChecker_of_message {s : State} {r : Request} (i : SlotId) (hkind : r.kind = .message) :
    s.throughChecker i r = s.setSlot i ((s.slot i).tellsHost (.request r)) := by
  simp [State.throughChecker, hkind, State.toHost_eq_setSlot]

/-- Settles O29: each of the three kinds comes to the checker, a read through the outbound set, and the checker forwards it. -/
theorem passingCardRequestIsForwarded : Obligations.PassingCardRequestIsForwarded := by
  intro s i r hwf hpor hclear hopen sl
  have hexec : TxKind.turnedBack r.kind = false → exec (.cardRequest i r) s = .next (s.cardOpen i r) :=
    exec_cardRequest_of_serving hwf hpor hclear hopen
  refine ⟨fun a n hkind hpass hnew hroom => ?_, fun a d hkind hpass => ?_, fun hkind => ?_⟩
  · have hposted : r.posted = false := by simp [Request.posted, hkind]
    rw [hexec (by rw [hkind]; rfl), State.cardOpen_of_new hposted hnew hroom, State.throughChecker_of_memRead hkind hpass]
    rfl
  · have hposted : r.posted = true := by simp [Request.posted, hkind]
    rw [hexec (by rw [hkind]; rfl), State.cardOpen_of_posted i hposted, State.throughChecker_of_memWrite hkind hpass]
  · have hposted : r.posted = true := by simp [Request.posted, hkind]
    rw [hexec (by rw [hkind]; rfl), State.cardOpen_of_posted i hposted, State.throughChecker_of_message i hkind]

end Sys2Proof.Machine
end

section
/-! Every command: it ends in a next state that keeps the queue and what is sound, or in the named fault (log 23); and the step over it. -/

namespace Sys2Proof.Machine

/-! ### Commands and the step -/

/-- R201: with POR# released an event or request acts. -/
theorem next_running {s : State} (f : State → State) (hpor : s.porHeld = false) :
    (.next (s.running f) : Host.Outcome State Fault Refusal) = .next (f s) := by
  simp [State.running, hpor]

/-- R201: while POR# is held it does not. -/
theorem next_running_held {s : State} (f : State → State) (hpor : s.porHeld = true) :
    (.next (s.running f) : Host.Outcome State Fault Refusal) = .next s := by
  simp [State.running, hpor]

/-- A well-formed request of the management link is its complete frame (log 18). -/
theorem exec_of_request {c : Instr} {sb : Byte} {r : BmcRequest} (s : State) (hreq : c.request = some (sb, r))
    (hwf : c.wf = true) : exec c s = .next (s.running fun s => s.submit sb r) := by
  cases c <;> cases hreq
  case winSet | denySet | filterSet => exact if_pos hwf
  all_goals rfl

/-- A well-formed command ends in a next state, which keeps the queue and what is sound. -/
theorem exec_evolves {c : Instr} (s : State) (hwf : c.wf = true) : ∃ t, exec c s = .next t ∧ s.Evolves t := by
  have hrunning {f : State → State} (h : s.Evolves (f s)) :
      ∃ t, (.next (s.running f) : Host.Outcome State Fault Refusal) = .next t ∧ s.Evolves t :=
    ⟨_, rfl, s.evolves_running f h⟩
  cases hreq : c.request with
  | some p =>
    rw [exec_of_request s hreq hwf]
    exact hrunning (s.evolves_submit p.1 p.2)
  | none =>
    cases c with
    | hostRequest i r =>
      rw [show exec (.hostRequest i r) s = .next (s.running fun s => s.hostRequest i r) from if_pos hwf]
      exact hrunning (s.evolves_hostRequest i r)
    | cardRequest i r =>
      rw [show exec (.cardRequest i r) s = .next (s.running fun s => s.cardRequest i r) from if_pos hwf]
      exact hrunning (s.evolves_cardRequest i r)
    | cardCompletion i d c =>
      rw [show exec (.cardCompletion i d c) s = .next (s.running fun s => s.cardCompletion i d c) from if_pos hwf]
      exact hrunning (s.evolves_cardCompletion i d c)
    | hostCompletion i c =>
      rw [show exec (.hostCompletion i c) s = .next (s.running fun s => s.hostCompletion i c) from if_pos hwf]
      exact hrunning (s.evolves_hostCompletion i c)
    | holdExpiry i => exact hrunning (s.evolves_holdExpiry i)
    | entryExpiry i tag => exact hrunning (s.evolves_entryExpiry i tag)
    | ghostDeadline i => exact hrunning (s.evolves_ghostDeadline i)
    | linkDown i => exact hrunning (s.evolves_linkDown i)
    | linkUp i => exact hrunning (s.evolves_linkUp i)
    | linkGraceExpiry i => exact hrunning (s.evolves_graceExpiry i)
    | upstreamReset i => exact hrunning (s.evolves_upstreamReset i)
    | upstreamRelease i => exact hrunning (s.evolves_upstreamRelease i)
    | decayEvent => exact hrunning s.evolves_decayEvent
    | calertAssertion i => exact ⟨_, rfl, s.evolves_calertPin i⟩
    | calertRelease i => exact ⟨_, rfl, s.evolves_calertRelease i⟩
    | drainExpiry i => exact hrunning (s.evolves_drainExpiry i)
    | decisionExpiry i => exact hrunning (s.evolves_decisionExpiry i)
    | minOffExpiry i => exact hrunning (s.evolves_minOffExpiry i)
    | dischargeTimeout i => exact hrunning (s.evolves_dischargeExpiry i)
    | rampExpiry i => exact hrunning (s.evolves_rampExpiry i)
    | resetPulseExpiry i => exact hrunning (s.evolves_pulseExpiry i)
    | trainingTimeout i => exact hrunning (s.evolves_trainingExpiry i)
    | restoreTimeout i => exact hrunning (s.evolves_restoreExpiry i)
    | resendTimerExpiry i => exact hrunning (s.evolves_resendExpiry i)
    | replayWriteDeadline i => exact hrunning (s.evolves_replayDeadline i)
    | prsntChange i b => exact ⟨_, rfl, s.evolves_prsntPin i b⟩
    | presenceDebounceExpiry i => exact hrunning (s.evolves_debounceExpiry i)
    | conversionEnd q => exact hrunning (s.evolves_conversionEnd q)
    | pwrenChange i b => exact ⟨_, rfl, s.evolves_pwrenPin i b⟩
    | attnBlinkToggle i => exact hrunning (s.evolves_blinkToggle i)
    | powerOnReset => exact ⟨_, rfl, s.evolves_powerOnReset⟩
    | endOfPowerOnReset r a => exact ⟨_, rfl, s.evolves_endOfPowerOnReset r a⟩
    | controlReset => exact ⟨_, rfl, s.evolves_cresetAssert⟩
    | cresetRelease => exact ⟨_, rfl, s.evolves_cresetRelease⟩
    | characterReceived v b => exact hrunning (s.evolves_characterReceived v b)
    | gapTimerExpiry => exact hrunning s.evolves_gapExpiry
    | replyStart => exact hrunning s.evolves_replyStart
    | replySent => exact hrunning s.evolves_replySent
    | _ => cases hreq

/-- Log 23: only the seven commands whose operands have ranges can be ill-formed, and each ends in the fault. -/
theorem exec_of_illFormed {c : Instr} (s : State) (hwf : c.wf = false) : exec c s = .fault .illFormedCommand := by
  have hnot : ¬ c.wf = true := by simp [hwf]
  cases c
  case hostRequest | cardRequest | cardCompletion | hostCompletion | winSet | denySet | filterSet => exact if_neg hnot
  all_goals cases hwf

/-- A command that ends in a next state is well-formed, so it keeps the queue and what is sound. -/
theorem exec_next_evolves {c : Instr} {s t : State} (h : exec c s = .next t) : s.Evolves t := by
  cases hwf : c.wf with
  | false =>
    rw [exec_of_illFormed s hwf] at h
    cases h
  | true =>
    obtain ⟨u, hu, hev⟩ := exec_evolves s hwf
    rw [h] at hu
    cases hu
    exact hev

/-- The free values taken and the time passed are no part of what is sound. -/
theorem State.evolves_freeCount (s : State) (n : Nat) : s.Evolves { s with freeCount := n } := .shared rfl rfl rfl id

theorem takeOwed_next_evolves {s t : State} {e : Owed} (h : s.takeOwed e = .next t) : s.Evolves t := by
  cases e with
  | event c => exact exec_next_evolves h
  | conversion => exact (s.evolves_freeCount (s.freeCount + 1)).trans (exec_next_evolves (c := .conversionEnd _) h)
  | hostArrival i =>
    cases h
    exact s.evolves_takeHostWaiting i
  | cardArrival i =>
    cases h
    exact s.evolves_takeCardWaiting i

theorem idle_next_evolves {s t : State} (h : s.idle = .next t) : s.Evolves t := by
  unfold State.idle at h
  split at h
  · cases h
    exact .refl _
  · split at h
    · cases h
      exact .shared rfl rfl rfl id
    · exact takeOwed_next_evolves h
    · exact (s.evolves_freeCount _).trans (takeOwed_next_evolves h)

/-- Settles O1: the step looks at the queue first. -/
theorem stepRunsFrontCommand : Obligations.StepRunsFrontCommand := by
  intro c rest s h
  simp only [step, h]

theorem step_of_empty {s : State} (h : s.pending = []) : step s = s.idle := by
  simp only [step, h]

/-- Settles O5: a step is a command or an idle step, and each keeps what is sound; the queue's rest is no part of that. -/
theorem stepKeepsThePartSound : Obligations.StepKeepsThePartSound := by
  intro s t hs hstep
  cases hp : s.pending with
  | nil =>
    rw [step_of_empty hp] at hstep
    exact (idle_next_evolves hstep).keepsSound hs
  | cons c rest =>
    rw [stepRunsFrontCommand c rest s hp] at hstep
    exact (exec_next_evolves hstep).keepsSound hs

/-- Settles O4: the two cases of the operands' ranges. -/
theorem commandsCompleteOrFault : Obligations.CommandsCompleteOrFault := by
  intro c s
  refine ⟨fun hwf => ?_, exec_of_illFormed s⟩
  obtain ⟨t, ht, hev⟩ := exec_evolves s hwf
  exact ⟨t, ht, hev.pending⟩

end Sys2Proof.Machine
end

section
/-! The seats of the slots: where each state stands with the inrush arbiter and the pending pool (R137, R140, R22, R41), and what changes of
the part leave the seats right. A slot on its way between two states holds no seat. -/

namespace Sys2Proof.Machine

/-! ### Seats -/

/-- What a state means to the arbiter (R137) and to the pool (R41): a place in the inrush queue, one in the granted set, pending entries
allowed, or none of these. -/
inductive Seat where
  | queued | granted | pooled | none
  deriving DecidableEq

/-- The seat that goes with a state. -/
def SlotState.seat : SlotState → Seat
  | .powerWait => .queued
  | .ramping => .granted
  | .online => .pooled
  | .suspect => .pooled
  | .fencing => .pooled
  | _ => .none

/-- The seat of slot `j`; a slot on the list `off` is between two states and has none. -/
def State.seat (s : State) (off : List SlotId) (j : SlotId) : Seat := if j ∈ off then .none else (s.slot j).ctl.state.seat

/-- The arbiter's lists hold exactly the slots with such seats, no slot twice and no rail partners granted together; and where `pool` is
asked for, at most 192 entries are pending, none of them of a slot without a seat for them. -/
structure State.Seated (s : State) (pool : Prop) (off : List SlotId) : Prop where
  queueNodup : (s.arbiter.queue.map fun p => p.slot).Nodup
  grantedNodup : (s.arbiter.granted.map fun p => p.slot).Nodup
  queued : ∀ p ∈ s.arbiter.queue, s.seat off p.slot = .queued
  granted : ∀ p ∈ s.arbiter.granted, s.seat off p.slot = .granted
  partners : ∀ p ∈ s.arbiter.granted, ∀ q ∈ s.arbiter.granted, q.slot ≠ partner p.slot
  waits : ∀ j, s.seat off j = .queued → ∃ p ∈ s.arbiter.queue, p.slot = j
  ramps : ∀ j, s.seat off j = .granted → ∃ p ∈ s.arbiter.granted, p.slot = j
  total : pool → (s.slots.toList.map fun sl => sl.entries.length).sum ≤ 192
  empty : pool → ∀ j, s.seat off j ≠ .pooled → (s.slot j).entries = []

theorem SlotState.seat_queued_iff (st : SlotState) : st.seat = .queued ↔ st = .powerWait := by
  cases st <;> simp [SlotState.seat]

theorem SlotState.seat_granted_iff (st : SlotState) : st.seat = .granted ↔ st = .ramping := by
  cases st <;> simp [SlotState.seat]

theorem SlotState.seat_pooled_iff (st : SlotState) : st.seat = .pooled ↔ st = .online ∨ st = .suspect ∨ st = .fencing := by
  cases st <;> simp [SlotState.seat]

theorem Slot.seat_of_serving {sl : Slot} (h : sl.serving) : sl.ctl.state.seat = .pooled :=
  (SlotState.seat_pooled_iff _).2 (h.imp_right .inl)

@[simp] theorem State.seat_nil (s : State) (j : SlotId) : s.seat [] j = (s.slot j).ctl.state.seat := rfl

theorem State.seat_cons (s : State) (i : SlotId) (off : List SlotId) (j : SlotId) :
    s.seat (i :: off) j = if j = i then .none else s.seat off j := by
  by_cases h : j = i <;> simp [State.seat, h]

theorem State.seat_cons_eq_iff {s : State} {i j : SlotId} {off : List SlotId} {x : Seat} (hx : x ≠ .none) :
    s.seat (i :: off) j = x ↔ j ≠ i ∧ s.seat off j = x := by
  rw [State.seat_cons]
  split
  next hi => exact ⟨fun h => absurd h.symm hx, fun h => absurd hi h.1⟩
  next hi => exact ⟨fun h => ⟨hi, h⟩, fun h => h.2⟩

theorem State.seat_of_not_mem {s : State} {off : List SlotId} {j : SlotId} (h : j ∉ off) :
    s.seat off j = (s.slot j).ctl.state.seat := if_neg h

theorem State.not_mem_of_seat {s : State} {off : List SlotId} {j : SlotId} {x : Seat} (h : s.seat off j = x) (hx : x ≠ .none) :
    j ∉ off := by
  intro hj
  rw [State.seat, if_pos hj] at h
  exact hx h.symm

theorem State.seated_iff_arbiterSound (s : State) : s.Seated False [] ↔ s.ArbiterSound := by
  simp only [State.ArbiterSound, ← SlotState.seat_queued_iff, ← SlotState.seat_granted_iff]
  constructor
  · intro h
    exact ⟨h.queueNodup, h.grantedNodup, h.queued, h.granted, h.partners, h.waits, h.ramps⟩
  · rintro ⟨h₁, h₂, h₃, h₄, h₅, h₆, h₇⟩
    exact ⟨h₁, h₂, h₃, h₄, h₅, h₆, h₇, False.elim, False.elim⟩

theorem State.seated_iff_poolSound (s : State) : s.Seated True [] ↔ s.ArbiterSound ∧ s.PoolSound := by
  have hempty : s.PoolSound ↔ (s.slots.toList.map fun sl => sl.entries.length).sum ≤ 192 ∧
      ∀ j, s.seat [] j ≠ .pooled → (s.slot j).entries = [] := by
    simp only [State.PoolSound, State.seat_nil, ne_eq, SlotState.seat_pooled_iff, not_or, and_imp]
  rw [hempty, ← State.seated_iff_arbiterSound]
  constructor
  · intro h
    exact ⟨{ h with total := False.elim, empty := False.elim }, h.total trivial, h.empty trivial⟩
  · rintro ⟨h, htotal, hempty⟩
    exact { h with total := fun _ => htotal, empty := fun _ => hempty }

/-! ### The entries pending in all -/

/-- R22: the entries of all eight lists, slot by slot. -/
theorem State.total_eq_sum (s : State) :
    (s.slots.toList.map fun sl => sl.entries.length).sum = ∑ i, (s.slot i).entries.length := by
  rw [Fin.sum_univ_def]
  congr 1
  apply List.ext_getElem <;> simp [State.slot]

theorem State.total_le {s t : State} (h : ∀ j, (t.slot j).entries.length ≤ (s.slot j).entries.length) :
    (t.slots.toList.map fun sl => sl.entries.length).sum ≤ (s.slots.toList.map fun sl => sl.entries.length).sum := by
  rw [t.total_eq_sum, s.total_eq_sum]
  exact Finset.sum_le_sum fun j _ => h j

/-- One slot's list longer by one at most. -/
theorem State.total_setSlot_le {s : State} {i : SlotId} {x : Slot} (h : x.entries.length ≤ (s.slot i).entries.length + 1) :
    ((s.setSlot i x).slots.toList.map fun sl => sl.entries.length).sum ≤
      (s.slots.toList.map fun sl => sl.entries.length).sum + 1 := by
  rw [State.total_eq_sum, s.total_eq_sum]
  calc ∑ j, ((s.setSlot i x).slot j).entries.length
      ≤ ∑ j, ((s.slot j).entries.length + if j = i then 1 else 0) := by
        refine Finset.sum_le_sum fun j _ => ?_
        rw [State.slot_setSlot]
        split
        next hj => exact hj ▸ h
        next => exact Nat.le_add_right _ _
    _ = (∑ j, (s.slot j).entries.length) + 1 := by simp [Finset.sum_add_distrib]

/-! ### Changes that leave the seats right -/

section
variable {s t : State} {pool : Prop} {off : List SlotId} {i : SlotId}

/-- The seats and the arbiter's lists stand, and no slot has more entries. -/
theorem State.Seated.of_seats (h : s.Seated pool off) (hqueue : t.arbiter.queue = s.arbiter.queue)
    (hgranted : t.arbiter.granted = s.arbiter.granted) (hseat : ∀ j, t.seat off j = s.seat off j)
    (hfewer : ∀ j, (t.slot j).entries.length ≤ (s.slot j).entries.length) : t.Seated pool off where
  queueNodup := hqueue ▸ h.queueNodup
  grantedNodup := hgranted ▸ h.grantedNodup
  queued := by simpa only [hqueue, hseat] using h.queued
  granted := by simpa only [hgranted, hseat] using h.granted
  partners := by simpa only [hgranted] using h.partners
  waits := by simpa only [hqueue, hseat] using h.waits
  ramps := by simpa only [hgranted, hseat] using h.ramps
  total := fun hp => (State.total_le hfewer).trans (h.total hp)
  empty := fun hp j hj => by
    have hnil := h.empty hp j (hseat j ▸ hj)
    exact List.length_eq_zero_iff.1 (Nat.le_zero.1 ((hfewer j).trans_eq (by rw [hnil]; rfl)))

/-- From `s` to `t` the arbiter's lists and every slot's state stand, and no slot has more entries. -/
structure State.Quiet (s t : State) : Prop where
  queue : t.arbiter.queue = s.arbiter.queue
  granted : t.arbiter.granted = s.arbiter.granted
  state : ∀ j, (t.slot j).ctl.state = (s.slot j).ctl.state
  fewer : ∀ j, (t.slot j).entries.length ≤ (s.slot j).entries.length

theorem State.Quiet.refl (s : State) : s.Quiet s := ⟨rfl, rfl, fun _ => rfl, fun _ => le_rfl⟩

theorem State.Quiet.trans {u : State} (h : s.Quiet t) (k : t.Quiet u) : s.Quiet u :=
  ⟨k.queue.trans h.queue, k.granted.trans h.granted, fun j => (k.state j).trans (h.state j),
    fun j => (k.fewer j).trans (h.fewer j)⟩

theorem State.Seated.quiet (h : s.Seated pool off) (q : s.Quiet t) : t.Seated pool off :=
  h.of_seats q.queue q.granted (fun j => by simp only [State.seat, q.state j]) q.fewer

/-- A change that leaves the slots and the arbiter's lists alone. -/
theorem State.Quiet.shared (hslots : t.slots = s.slots) (hqueue : t.arbiter.queue = s.arbiter.queue)
    (hgranted : t.arbiter.granted = s.arbiter.granted) : s.Quiet t :=
  ⟨hqueue, hgranted, fun j => by simp only [State.slot, hslots], fun j => by simp only [State.slot, hslots]; exact le_rfl⟩

theorem State.quiet_setSlot {x : Slot} (hstate : x.ctl.state = (s.slot i).ctl.state)
    (hfewer : x.entries.length ≤ (s.slot i).entries.length) : s.Quiet (s.setSlot i x) := by
  refine ⟨rfl, rfl, fun j => ?_, fun j => ?_⟩
  all_goals
    rw [State.slot_setSlot]
    split
    next hj => subst hj; assumption
    next => rfl

theorem State.quiet_modSlot (s : State) (i : SlotId) (f : Slot → Slot) (hstate : ∀ a, (f a).ctl.state = a.ctl.state)
    (hfewer : ∀ a, (f a).entries.length ≤ a.entries.length) : s.Quiet (s.modSlot i f) :=
  State.quiet_setSlot (hstate _) (hfewer _)

theorem State.quiet_moved {x : Slot} (hstate : x.ctl.state = (s.slot i).ctl.state)
    (hfewer : x.entries.length ≤ (s.slot i).entries.length) : s.Quiet (s.moved i x) := by
  refine ⟨rfl, rfl, fun j => ?_, fun j => ?_⟩ <;> by_cases hj : j = i
  · rw [hj, State.moved_state, hstate]
  · rw [State.moved_slot_of_ne s x hj]
  · rw [hj, State.moved_entries]
    exact hfewer
  · rw [State.moved_slot_of_ne s x hj]

theorem State.quiet_drive (s : State) (i : SlotId) (f : Slot → Slot) (hstate : ∀ a, (f a).ctl.state = a.ctl.state)
    (hfewer : ∀ a, (f a).entries.length ≤ a.entries.length) : s.Quiet (s.drive i f) := by
  rw [State.drive_eq_moved]
  exact State.quiet_moved (hstate _) (hfewer _)

/-! ### A slot between two states -/

/-- A slot in a state without a seat, or with no entries in one that allows them, may be taken off. -/
theorem State.Seated.takeOff (h : s.Seated pool off) (hqueued : s.seat off i ≠ .queued) (hgranted : s.seat off i ≠ .granted)
    (hempty : pool → s.seat off i = .pooled → (s.slot i).entries = []) : s.Seated pool (i :: off) where
  queueNodup := h.queueNodup
  grantedNodup := h.grantedNodup
  queued p hp := (State.seat_cons_eq_iff (by decide)).2 ⟨fun hi => hqueued (hi ▸ h.queued p hp), h.queued p hp⟩
  granted p hp := (State.seat_cons_eq_iff (by decide)).2 ⟨fun hi => hgranted (hi ▸ h.granted p hp), h.granted p hp⟩
  partners := h.partners
  waits j hj := h.waits j ((State.seat_cons_eq_iff (by decide)).1 hj).2
  ramps j hj := h.ramps j ((State.seat_cons_eq_iff (by decide)).1 hj).2
  total := h.total
  empty hp j hj := by
    by_cases hpooled : s.seat off j = .pooled
    · by_cases hji : j = i
      · subst hji
        exact hempty hp hpooled
      · exact absurd ((State.seat_cons_eq_iff (by decide)).2 ⟨hji, hpooled⟩) hj
    · exact h.empty hp j hpooled

/-- The same for a slot whose state has no seat. -/
theorem State.Seated.takeOff_none (h : s.Seated pool off) (hseat : (s.slot i).ctl.state.seat = .none) :
    s.Seated pool (i :: off) := by
  have hnone : s.seat off i = .none := by rw [State.seat, hseat]; exact ite_self _
  exact h.takeOff (by simp [hnone]) (by simp [hnone]) (by simp [hnone])

/-- A slot whose state asks for no place in the arbiter comes to rest. -/
theorem State.Seated.settle (h : s.Seated pool (i :: off)) (hqueued : (s.slot i).ctl.state.seat ≠ .queued)
    (hgranted : (s.slot i).ctl.state.seat ≠ .granted) : s.Seated pool off := by
  have hrest {x : Seat} (hx : x ≠ .none) (hne : (s.slot i).ctl.state.seat ≠ x) {j : SlotId} (hj : s.seat off j = x) :
      s.seat (i :: off) j = x := by
    refine (State.seat_cons_eq_iff hx).2 ⟨?_, hj⟩
    rintro rfl
    rw [State.seat_of_not_mem (State.not_mem_of_seat hj hx)] at hj
    exact hne hj
  exact { h with
    queued := fun p hp => ((State.seat_cons_eq_iff (by decide)).1 (h.queued p hp)).2
    granted := fun p hp => ((State.seat_cons_eq_iff (by decide)).1 (h.granted p hp)).2
    waits := fun j hj => h.waits j (hrest (by decide) hqueued hj)
    ramps := fun j hj => h.ramps j (hrest (by decide) hgranted hj)
    empty := fun hp j hj => h.empty hp j fun hpooled => hj ((State.seat_cons_eq_iff (by decide)).1 hpooled).2 }

/-- A slot between two states may move, with no entry more. -/
theorem State.Seated.moved_off (h : s.Seated pool (i :: off)) {x : Slot}
    (hfewer : x.entries.length ≤ (s.slot i).entries.length) : (s.moved i x).Seated pool (i :: off) := by
  refine h.of_seats rfl rfl (fun j => ?_) fun j => ?_
  · by_cases hj : j = i
    · simp [State.seat_cons, hj]
    · simp only [State.seat, State.moved_slot_of_ne s x hj]
  · by_cases hj : j = i
    · rw [hj, State.moved_entries]
      exact hfewer
    · rw [State.moved_slot_of_ne s x hj]

/-- A slot between two states enters one that asks for no place in the arbiter. -/
theorem State.Seated.drive_into (h : s.Seated pool (i :: off)) (f : Slot → Slot) (st : SlotState)
    (hstate : ∀ a, (f a).ctl.state = st) (hqueued : st.seat ≠ .queued) (hgranted : st.seat ≠ .granted)
    (hfewer : ∀ a, (f a).entries.length ≤ a.entries.length) : (s.drive i f).Seated pool off := by
  rw [State.drive_eq_moved]
  refine (h.moved_off (hfewer _)).settle ?_ ?_ <;> rwa [State.moved_state, hstate]

/-- A slot with pending entries moves among the states that allow them. -/
theorem State.Seated.drive_pooled (h : s.Seated pool []) (f : Slot → Slot) (hfrom : (s.slot i).ctl.state.seat = .pooled)
    (hinto : (f (s.slot i)).ctl.state.seat = .pooled) (hfewer : (f (s.slot i)).entries.length ≤ (s.slot i).entries.length) :
    (s.drive i f).Seated pool [] := by
  rw [State.drive_eq_moved]
  refine h.of_seats rfl rfl (fun j => ?_) fun j => ?_ <;> by_cases hj : j = i
  · rw [State.seat_nil, State.seat_nil, hj, State.moved_state, hinto, hfrom]
  · rw [State.seat_nil, State.seat_nil, State.moved_slot_of_ne s _ hj]
  · rw [hj, State.moved_entries]
    exact hfewer
  · rw [State.moved_slot_of_ne s _ hj]

/-! ### The arbiter's lists -/

theorem mem_dropPlace {p : Place} {l : List Place} : p ∈ dropPlace i l ↔ p ∈ l ∧ p.slot ≠ i := by simp [dropPlace]

theorem dropPlace_eq_self {l : List Place} (h : ∀ p ∈ l, p.slot ≠ i) : dropPlace i l = l := by
  simpa [dropPlace] using h

theorem State.Seated.dropPlace_queue (h : s.Seated pool off) (hi : s.seat off i ≠ .queued) :
    dropPlace i s.arbiter.queue = s.arbiter.queue :=
  dropPlace_eq_self fun p hp hpi => hi (hpi ▸ h.queued p hp)

theorem State.Seated.dropPlace_granted (h : s.Seated pool off) (hi : s.seat off i ≠ .granted) :
    dropPlace i s.arbiter.granted = s.arbiter.granted :=
  dropPlace_eq_self fun p hp hpi => hi (hpi ▸ h.granted p hp)

theorem nodup_dropPlace {l : List Place} (h : (l.map fun p => p.slot).Nodup) :
    ((dropPlace i l).map fun p => p.slot).Nodup := (List.filter_sublist.map _).nodup h

/-- R144, R145: a slot that gives its place back is between two states. -/
theorem State.Seated.dropped (h : s.Seated pool off) (hempty : s.seat off i ≠ .pooled) :
    ({ s with
      arbiter.queue := dropPlace i s.arbiter.queue
      arbiter.granted := dropPlace i s.arbiter.granted } : State).Seated pool (i :: off) := by
  have hiff {j : SlotId} {x : Seat} (hx : x ≠ .none) : s.seat (i :: off) j = x ↔ j ≠ i ∧ s.seat off j = x :=
    State.seat_cons_eq_iff hx
  refine
    { queueNodup := nodup_dropPlace h.queueNodup
      grantedNodup := nodup_dropPlace h.grantedNodup
      queued := fun p hp => (hiff (by decide)).2 ?_
      granted := fun p hp => (hiff (by decide)).2 ?_
      partners := fun p hp q hq => h.partners p (mem_dropPlace.1 hp).1 q (mem_dropPlace.1 hq).1
      waits := fun j hj => ?_
      ramps := fun j hj => ?_
      total := h.total
      empty := fun hp j hj => h.empty hp j fun hpooled => hj ((hiff (by decide)).2 ⟨?_, hpooled⟩) }
  · obtain ⟨hmem, hne⟩ := mem_dropPlace.1 hp
    exact ⟨hne, h.queued p hmem⟩
  · obtain ⟨hmem, hne⟩ := mem_dropPlace.1 hp
    exact ⟨hne, h.granted p hmem⟩
  · obtain ⟨hne, hj⟩ := (hiff (by decide)).1 hj
    obtain ⟨p, hp, rfl⟩ := h.waits j hj
    exact ⟨p, mem_dropPlace.2 ⟨hp, hne⟩, rfl⟩
  · obtain ⟨hne, hj⟩ := (hiff (by decide)).1 hj
    obtain ⟨p, hp, rfl⟩ := h.ramps j hj
    exact ⟨p, mem_dropPlace.2 ⟨hp, hne⟩, rfl⟩
  · rintro rfl
    exact hempty hpooled

theorem partner_partner (j : SlotId) : partner (partner j) = j := by revert j; decide

theorem partner_ne (j : SlotId) : j ≠ partner j := by revert j; decide

theorem nodup_map_slot_append {l : List Place} {p : Place} (h : (l.map fun q => q.slot).Nodup)
    (hp : ∀ q ∈ l, q.slot ≠ p.slot) : ((l ++ [p]).map fun q => q.slot).Nodup := by
  rw [List.map_append, List.nodup_append]
  refine ⟨h, List.nodup_singleton _, fun x hx y hy => ?_⟩
  obtain ⟨q, hq, rfl⟩ := List.mem_map.1 hx
  rw [List.mem_singleton.1 hy]
  exact hp q hq

/-- R97, R141: a slot in POWER_WAIT takes a place at the tail of the queue. -/
theorem State.Seated.enqueue (h : s.Seated pool (i :: off)) (hi : i ∉ off) (hstate : (s.slot i).ctl.state = .powerWait)
    (demand : Nat) :
    ({ s with arbiter.queue := s.arbiter.queue ++ [{ slot := i, demand := demand }] } : State).Seated pool off := by
  have hseat {j : SlotId} {x : Seat} (hj : s.seat (i :: off) j = x) (hx : x ≠ .none) : j ≠ i ∧ s.seat off j = x :=
    (State.seat_cons_eq_iff hx).1 hj
  have hself : s.seat off i = .queued := by rw [State.seat_of_not_mem hi, hstate]; rfl
  refine
    { queueNodup := nodup_map_slot_append h.queueNodup fun q hq => (hseat (h.queued q hq) (by decide)).1
      grantedNodup := h.grantedNodup
      queued := fun p hp => ?_
      granted := fun p hp => (hseat (h.granted p hp) (by decide)).2
      partners := h.partners
      waits := fun j hj => ?_
      ramps := fun j hj => ?_
      total := h.total
      empty := fun hp j hj => ?_ }
  · obtain hp | rfl := List.mem_append.1 hp |>.imp_right List.mem_singleton.1
    · exact (hseat (h.queued p hp) (by decide)).2
    · exact hself
  · by_cases hji : j = i
    · exact ⟨_, List.mem_append_right _ (List.mem_singleton.2 rfl), hji.symm⟩
    · obtain ⟨p, hp, hpj⟩ := h.waits j ((State.seat_cons_eq_iff (by decide)).2 ⟨hji, hj⟩)
      exact ⟨p, List.mem_append_left _ hp, hpj⟩
  · refine h.ramps j ((State.seat_cons_eq_iff (by decide)).2 ⟨?_, hj⟩)
    rintro rfl
    exact absurd (hself.symm.trans hj) (by decide)
  · refine h.empty hp j fun hpooled => hj (hseat hpooled (by decide)).2

/-- R143, R99: a slot that enters RAMPING takes a place in the granted set, where its rail partner has none. -/
theorem State.Seated.grant (h : s.Seated pool (i :: off)) (hi : i ∉ off) (hstate : (s.slot i).ctl.state = .ramping)
    (demand : Nat) (hpartner : ∀ q ∈ s.arbiter.granted, q.slot ≠ partner i) :
    ({ s with arbiter.granted := s.arbiter.granted ++ [{ slot := i, demand := demand }] } : State).Seated pool off := by
  have hseat {j : SlotId} {x : Seat} (hj : s.seat (i :: off) j = x) (hx : x ≠ .none) : j ≠ i ∧ s.seat off j = x :=
    (State.seat_cons_eq_iff hx).1 hj
  have hself : s.seat off i = .granted := by rw [State.seat_of_not_mem hi, hstate]; rfl
  refine
    { queueNodup := h.queueNodup
      grantedNodup := nodup_map_slot_append h.grantedNodup fun q hq => (hseat (h.granted q hq) (by decide)).1
      queued := fun p hp => (hseat (h.queued p hp) (by decide)).2
      granted := fun p hp => ?_
      partners := fun p hp q hq => ?_
      waits := fun j hj => ?_
      ramps := fun j hj => ?_
      total := h.total
      empty := fun hp j hj => ?_ }
  · obtain hp | rfl := List.mem_append.1 hp |>.imp_right List.mem_singleton.1
    · exact (hseat (h.granted p hp) (by decide)).2
    · exact hself
  · obtain hp | rfl := List.mem_append.1 hp |>.imp_right List.mem_singleton.1 <;>
      obtain hq | rfl := List.mem_append.1 hq |>.imp_right List.mem_singleton.1
    · exact h.partners p hp q hq
    · intro hpair
      exact hpartner p hp (by rw [show i = partner p.slot from hpair, partner_partner])
    · exact hpartner q hq
    · exact partner_ne i
  · refine h.waits j ((State.seat_cons_eq_iff (by decide)).2 ⟨?_, hj⟩)
    rintro rfl
    exact absurd (hself.symm.trans hj) (by decide)
  · by_cases hji : j = i
    · exact ⟨_, List.mem_append_right _ (List.mem_singleton.2 rfl), hji.symm⟩
    · obtain ⟨p, hp, hpj⟩ := h.ramps j ((State.seat_cons_eq_iff (by decide)).2 ⟨hji, hj⟩)
      exact ⟨p, List.mem_append_left _ hp, hpj⟩
  · refine h.empty hp j fun hpooled => hj (hseat hpooled (by decide)).2

end

end Sys2Proof.Machine
end

section
/-! The operations and the seats: each shared operation is quiet, each entry to a state brings the slot to rest in the seat of that state,
and each event keeps the seats right. -/

namespace Sys2Proof.Machine

/-! ### Quiet operations -/

theorem State.quiet_report (s : State) (k : ReportKind) (i : SlotId) (r : Option Reason) (v : Option Nat) :
    s.Quiet (s.report k i r v) := by
  rw [State.report_eq]
  exact .shared rfl rfl rfl

theorem State.quiet_reporting (s : State) (r : Report) : s.Quiet (s.reporting r) := .shared rfl rfl rfl

theorem State.quiet_monitor (s : State) (m : Monitor) : s.Quiet { s with monitor := m } := .shared rfl rfl rfl

theorem State.quiet_reportRestored (s : State) (i : SlotId) (n : Nat) (b : Bool) : s.Quiet (s.reportRestored i n b) := by
  rw [State.reportRestored_reporting]
  exact s.quiet_reporting _

theorem State.quiet_reportState (s : State) (i : SlotId) (r : Option Reason) (v : Option Nat) :
    s.Quiet (s.reportState i r v) := by
  rw [State.reportState_reporting]
  exact .trans (by exact s.quiet_modSlot i _ (fun _ => rfl) fun _ => le_rfl) (State.quiet_reporting _ _)

theorem State.quiet_toHost (s : State) (i : SlotId) (o : HostOut) : s.Quiet (s.toHost i o) :=
  s.quiet_modSlot i _ (fun _ => rfl) fun _ => le_rfl

theorem State.quiet_toCard (s : State) (i : SlotId) (o : CardOut) : s.Quiet (s.toCard i o) :=
  s.quiet_modSlot i _ (fun _ => rfl) fun _ => le_rfl

theorem State.quiet_countAbsorbed (s : State) (i : SlotId) : s.Quiet (s.countAbsorbed i) :=
  s.quiet_modSlot i _ (fun _ => rfl) fun _ => le_rfl

theorem State.quiet_countDropped (s : State) (i : SlotId) : s.Quiet (s.countDropped i) :=
  s.quiet_modSlot i _ (fun _ => rfl) fun _ => le_rfl

theorem State.quiet_setPowerOff (s : State) (i : SlotId) : s.Quiet (s.setPowerOff i) := by
  unfold State.setPowerOff
  dsimp only
  split
  · exact .trans (by exact s.quiet_modSlot i _ (fun _ => rfl) fun _ => le_rfl) (State.quiet_monitor _ _)
  · exact s.quiet_modSlot i _ (fun _ => rfl) fun _ => le_rfl

theorem State.quiet_refuseTag (s : State) (i : SlotId) (tag : Tag) : s.Quiet (s.refuseTag i tag) :=
  (s.quiet_toHost i _).trans (State.quiet_report _ _ _ _ _)

theorem State.quiet_holdRequest (s : State) (i : SlotId) (r : Request) : s.Quiet (s.holdRequest i r) :=
  s.quiet_modSlot i _ (fun _ => rfl) fun _ => le_rfl

theorem State.quiet_leavePoolWait (s : State) (i : SlotId) : s.Quiet (s.leavePoolWait i) := .shared rfl rfl rfl

theorem State.quiet_joinPoolWait (s : State) (i : SlotId) : s.Quiet (s.joinPoolWait i) := by
  unfold State.joinPoolWait
  split
  · exact .refl s
  · exact .shared rfl rfl rfl

theorem State.quiet_emptyHold (s : State) (i : SlotId) : s.Quiet (s.emptyHold i) :=
  .trans (by exact s.quiet_modSlot i _ (fun _ => rfl) fun _ => le_rfl) (State.quiet_leavePoolWait _ i)

theorem State.quiet_absorb (s : State) (i : SlotId) (r : Request) : s.Quiet (s.absorb i r) := by
  rw [State.absorb_eq]
  unfold State.absorbs
  dsimp only
  split
  · exact .trans (by exact State.quiet_setSlot rfl le_rfl) (State.quiet_reporting _ _)
  · split <;> exact State.quiet_setSlot rfl le_rfl

theorem State.quiet_absorbHeld (s : State) (i : SlotId) : s.Quiet (s.absorbHeld i) := by
  unfold State.absorbHeld
  split
  · exact .refl s
  · exact (s.quiet_emptyHold i).trans (State.quiet_absorb _ _ _)

theorem State.quiet_blockCard (s : State) (i : SlotId) (r : Request) : s.Quiet (s.blockCard i r) := by
  unfold State.blockCard
  split
  · exact .refl s
  · exact s.quiet_toCard i _

theorem State.quiet_blockHeld (s : State) (i : SlotId) : s.Quiet (s.blockHeld i) := by
  unfold State.blockHeld
  split
  · exact .refl s
  · exact .trans (by exact s.quiet_modSlot i _ (fun _ => rfl) fun _ => le_rfl) (State.quiet_blockCard _ _ _)

theorem State.quiet_answerEntry (s : State) (i : SlotId) (e : Entry) : s.Quiet (s.answerEntry i e) := s.quiet_toHost i _

theorem State.quiet_issueWrite (s : State) (i : SlotId) (e : ImgEntry) : s.Quiet (s.issueWrite i e) :=
  .trans (by exact s.quiet_modSlot i _ (fun _ => rfl) fun _ => le_rfl) (State.quiet_toCard _ _ _)

theorem State.quiet_holdCard (s : State) (i : SlotId) (r : Request) : s.Quiet (s.holdCard i r) :=
  s.quiet_modSlot i _ (fun _ => rfl) fun _ => le_rfl

theorem State.quiet_upstreamClear (s : State) (i : SlotId) : s.Quiet (s.upstreamClear i) :=
  .trans (by exact s.quiet_modSlot i _ (fun _ => rfl) fun _ => le_rfl) (State.quiet_emptyHold _ i)

theorem State.quiet_setPinMode (s : State) (i : SlotId) (m : PinMode) : s.Quiet (s.setPinMode i m) := by
  have hdrive : s.Quiet (s.drive i fun sl => { sl with pins.mode := m }) :=
    s.quiet_drive i _ (fun _ => rfl) fun _ => le_rfl
  unfold State.setPinMode State.when
  dsimp only
  split
  · exact hdrive.trans (State.quiet_modSlot _ _ _ (fun _ => rfl) fun _ => le_rfl)
  · exact hdrive

theorem State.quiet_forceLive (s : State) (i : SlotId) : s.Quiet (s.forceLive i) := by
  unfold State.forceLive
  split
  · exact .refl s
  · exact s.quiet_setPinMode i .live

/-! ### Entries of the pending pool -/

section
variable {s : State} {pool : Prop} {off : List SlotId} {i : SlotId}

theorem State.Seated.when {c : Bool} {f : State → State} (h : s.Seated pool []) (hf : c = true → (f s).Seated pool []) :
    (s.when c f).Seated pool [] := by
  unfold State.when
  split
  next hc => exact hf hc
  next => exact h

/-- R19: with an entry free, fewer than 192 are pending. -/
theorem State.total_lt_of_poolFree (h : s.poolFree ≠ 0) : (s.slots.toList.map fun sl => sl.entries.length).sum < 192 := by
  unfold State.poolFree Config.poolSize at h
  omega

/-- R23: what admission has found of the pool for a request it takes. -/
theorem State.poolFree_of_admitted {r : Request} (h : s.admission i r = .admitted) : s.poolFree ≠ 0 := by
  intro hfree
  rw [State.admission_eq, if_pos hfree] at h
  split at h
  · cases h
  · split at h <;> cases h

/-- R22, R23: a request admitted in service takes one free entry. -/
theorem State.Seated.admitRequest (h : s.Seated pool []) (hseat : (s.slot i).ctl.state.seat = .pooled) (hfree : s.poolFree ≠ 0)
    (r : Request) (a d : Micros) : (s.admitRequest i r a d).Seated pool [] := by
  refine State.Seated.quiet ?_ (State.quiet_toCard _ _ _)
  have hstate : ∀ j, ((s.modSlot i fun sl => { sl with entries := sl.entries ++ [r.entry a d] }).slot j).ctl.state =
      (s.slot j).ctl.state := fun j => by
    rw [State.slot_modSlot]
    split
    next hj => rw [hj]
    next => rfl
  have hsame : ∀ j, (s.modSlot i fun sl => { sl with entries := sl.entries ++ [r.entry a d] }).seat [] j = s.seat [] j :=
    fun j => by simp only [State.seat_nil, hstate]
  exact
    { queueNodup := h.queueNodup
      grantedNodup := h.grantedNodup
      queued := fun p hp => (hsame _).trans (h.queued p hp)
      granted := fun p hp => (hsame _).trans (h.granted p hp)
      partners := h.partners
      waits := fun j hj => h.waits j ((hsame j).symm.trans hj)
      ramps := fun j hj => h.ramps j ((hsame j).symm.trans hj)
      total := fun _ => (State.total_setSlot_le (by simp)).trans (State.total_lt_of_poolFree hfree)
      empty := fun hp j hj => by
        rw [hsame] at hj
        have hne : j ≠ i := fun hji => hj (hji ▸ hseat)
        rw [State.slot_modSlot_of_ne s _ hne]
        exact h.empty hp j hj }

theorem State.Seated.takeOpen (h : s.Seated pool []) (hseat : (s.slot i).ctl.state.seat = .pooled) (r : Request) :
    (s.takeOpen i r).Seated pool [] := by
  unfold State.takeOpen
  split
  · exact h.quiet (s.quiet_toCard i _)
  · split
    · exact h.quiet (s.quiet_refuseTag i _)
    · exact h.quiet (s.quiet_holdRequest i r)
    · exact h.quiet ((s.quiet_holdRequest i r).trans (State.quiet_joinPoolWait _ i))
    next hadm => exact h.admitRequest hseat (State.poolFree_of_admitted hadm) r _ _

theorem State.Seated.hostArrive (h : s.Seated pool []) (r : Request) : (s.hostArrive i r).Seated pool [] := by
  unfold State.hostArrive
  dsimp only
  split
  next hserves =>
    split
    · exact h.takeOpen (Slot.seat_of_serving ((s.slot i).inService_iff.1 hserves)) r
    · exact h.quiet (s.quiet_holdRequest i r)
  next =>
    split
    · exact h.quiet (s.quiet_holdRequest i r)
    · exact h.quiet (s.quiet_absorb i r)

theorem State.Seated.hostRequest (h : s.Seated pool []) (r : Request) : (s.hostRequest i r).Seated pool [] := by
  unfold State.hostRequest
  dsimp only
  split
  · exact h
  · split
    · exact h.quiet (s.quiet_modSlot i _ (fun _ => rfl) fun _ => le_rfl)
    · exact h.hostArrive r

theorem State.Seated.takeHostWaiting (h : s.Seated pool []) : (s.takeHostWaiting i).Seated pool [] := by
  unfold State.takeHostWaiting
  split
  · exact h
  · refine State.Seated.hostArrive ?_ _
    exact h.quiet (s.quiet_modSlot i _ (fun _ => rfl) fun _ => le_rfl)

/-- What `emptyHold` leaves of the pool. -/
theorem State.poolFree_emptyHold (s : State) (i : SlotId) : (s.emptyHold i).poolFree = s.poolFree := by
  have hentries : ∀ j, ((s.emptyHold i).slot j).entries.length = (s.slot j).entries.length := fun j => by
    show ((s.modSlot i fun sl => { sl with chan.hold := none }).slot j).entries.length = _
    rw [State.slot_modSlot]
    split
    next hj => rw [hj]
    next => rfl
  simp only [State.poolFree, State.total_eq_sum, hentries]

theorem State.Seated.offerHeld (h : s.Seated pool []) : (s.offerHeld i).Seated pool [] := by
  unfold State.offerHeld
  split
  · exact h
  next held hheld =>
    split
    next hproceeds =>
      have hseat : ((s.emptyHold i).slot i).ctl.state.seat = .pooled := by
        rw [State.slot_emptyHold]
        exact Slot.seat_of_serving ((s.slot i).holdMayProceed_iff.1 hproceeds).1
      split
      · exact h.quiet ((s.quiet_emptyHold i).trans (State.quiet_toCard _ _ _))
      · split
        · exact h.quiet ((s.quiet_emptyHold i).trans (State.quiet_refuseTag _ _ _))
        · exact h.quiet (s.quiet_leavePoolWait i)
        · exact h.quiet (s.quiet_joinPoolWait i)
        next hadm =>
          refine (h.quiet (s.quiet_emptyHold i)).admitRequest hseat ?_ _ _ _
          rw [State.poolFree_emptyHold]
          exact State.poolFree_of_admitted hadm
    next => exact h

theorem State.Seated.offerAlong (l : List SlotId) : ∀ {s : State}, s.Seated pool [] →
    (State.offerAlong l s).Seated pool [] := by
  induction l with
  | nil => exact fun h => h
  | cons j rest ih =>
    intro s h
    unfold State.offerAlong
    dsimp only
    split
    · split
      · exact h.offerHeld
      · exact ih h.offerHeld
    · exact ih h

theorem State.Seated.quotaOffer (h : s.Seated pool []) : (s.quotaOffer i).Seated pool [] := by
  unfold State.quotaOffer
  split
  · exact h
  · exact h.offerHeld

theorem State.Seated.freeEntry (h : s.Seated pool []) (tag : Tag) : (s.freeEntry i tag).Seated pool [] :=
  (State.Seated.offerAlong _
    (h.quiet (s.quiet_modSlot i (fun sl => { sl with entries := sl.entries.eraseP fun e => e.tag == tag }) (fun _ => rfl)
      fun _ => List.length_eraseP_le))).quotaOffer

/-! ### Entries to states, with the arbiter -/

/-- R84: the places of the slot are gone with its entry. -/
theorem State.Seated.enterQuarantined (h : s.Seated pool (i :: off)) (r : Reason) :
    (s.enterQuarantined i r).Seated pool off := by
  have hstate : ∀ a : Slot, ({ a.moveTo .quarantined with
      ctl.reason := some r, ctl.powerCut := false, ctl.resetKind := none, ctl.origin := none } : Slot).ctl.state =
      .quarantined := fun _ => rfl
  have hin := h.drive_into _ .quarantined hstate (by decide) (by decide) fun _ => le_rfl
  have hnone : ∀ x, x ≠ .none → (s.drive i fun sl => { sl.moveTo .quarantined with
      ctl.reason := some r, ctl.powerCut := false, ctl.resetKind := none, ctl.origin := none }).seat off i ≠ x := by
    intro x hx
    rw [State.seat, State.drive_eq_moved, State.moved_state, hstate]
    split <;> exact hx.symm
  unfold State.enterQuarantined
  dsimp only
  rw [hin.dropPlace_queue (hnone _ (by decide)), hin.dropPlace_granted (hnone _ (by decide))]
  exact (hin.quiet (.shared rfl rfl rfl)).quiet
    (((State.quiet_setPowerOff _ i).trans (State.quiet_reportState _ i _ _)).trans (State.quiet_absorbHeld _ i))

theorem State.Seated.budgetFailure (h : s.Seated pool (i :: off)) : (s.budgetFailure i).Seated pool off :=
  State.Seated.enterQuarantined (h.quiet (s.quiet_report _ i _ _)) .budget

theorem State.enterQuarantined_queue (s : State) (i : SlotId) (r : Reason) :
    (s.enterQuarantined i r).arbiter.queue = dropPlace i s.arbiter.queue := by
  unfold State.enterQuarantined
  dsimp only
  rw [((State.quiet_setPowerOff _ i).trans
    ((State.quiet_reportState _ i _ _).trans (State.quiet_absorbHeld _ i))).queue]
  rw [State.drive_eq_moved]
  rfl

theorem State.budgetFailure_queue (s : State) (i : SlotId) :
    (s.budgetFailure i).arbiter.queue = dropPlace i s.arbiter.queue := by
  rw [State.budgetFailure, State.enterQuarantined_queue, (s.quiet_report _ i _ _).queue]

/-- R142: with the head of the queue taken out, its slot is between two states and the rest of the queue holds no place of it. -/
theorem State.Seated.popped {p : Place} {rest : List Place} (h : s.Seated pool off) (hqueue : s.arbiter.queue = p :: rest) :
    ({ s with arbiter.queue := rest } : State).Seated pool (p.slot :: off) ∧ dropPlace p.slot rest = rest := by
  have hnodup := h.queueNodup
  rw [hqueue, List.map_cons, List.nodup_cons] at hnodup
  have hrest : dropPlace p.slot rest = rest :=
    dropPlace_eq_self fun q hq hqp => hnodup.1 (hqp ▸ List.mem_map_of_mem hq)
  have hseat : s.seat off p.slot = .queued := h.queued p (hqueue ▸ List.mem_cons_self)
  have hdrop : dropPlace p.slot s.arbiter.queue = rest := by
    rw [hqueue, ← hrest]
    simp [dropPlace]
  have hdropped := h.dropped (i := p.slot) (by rw [hseat]; decide)
  rw [hdrop, h.dropPlace_granted (by rw [hseat]; decide)] at hdropped
  exact ⟨hdropped, hrest⟩

/-- R99, R143: the head of the queue enters RAMPING with its grant. -/
theorem State.Seated.enterRamping {p : Place} (h : s.Seated pool (p.slot :: off)) (hp : p.slot ∉ off)
    (hfits : s.arbiter.fits p = true) :
    (({ s with arbiter.granted := s.arbiter.granted ++ [p] } : State).enterRamping p.slot).Seated pool off := by
  obtain ⟨-, hpartner⟩ : _ ∧ ∀ q ∈ s.arbiter.granted, q.slot ≠ partner p.slot := by simpa [Arbiter.fits] using hfits
  let f : Slot → Slot := fun sl => { sl.moveTo .ramping with ctl.rampTimer := some (s.afterMs sl.policy.ramp) }
  have hmoved : (s.moved p.slot (f (s.slot p.slot))).Seated pool (p.slot :: off) := h.moved_off le_rfl
  have hgrant := hmoved.grant hp (by rw [State.moved_state]; rfl) p.demand hpartner
  rw [State.enterRamping, State.drive_eq_moved]
  exact hgrant

theorem State.enterRamping_queue (s : State) (i : SlotId) : (s.enterRamping i).arbiter.queue = s.arbiter.queue := by
  rw [State.enterRamping, State.drive_eq_moved]
  rfl

/-- R142: each turn of a grant check takes the head of the queue out, into QUARANTINED or into RAMPING. -/
theorem State.Seated.grantLoop (l : List Place) : ∀ {s : State}, s.Seated pool off → s.arbiter.queue = l →
    (State.grantLoop l s).Seated pool off := by
  induction l with
  | nil => exact fun h _ => h
  | cons p rest ih =>
    intro s h hqueue
    obtain ⟨hpopped, hrest⟩ := h.popped hqueue
    have hp : p.slot ∉ off := State.not_mem_of_seat (h.queued p (hqueue ▸ List.mem_cons_self)) (by decide)
    unfold State.grantLoop
    split
    · exact ih hpopped.budgetFailure ((State.budgetFailure_queue _ _).trans hrest)
    · split
      next hfits => exact ih (hpopped.enterRamping hp hfits) (State.enterRamping_queue _ _)
      next => exact h

theorem State.Seated.grantCheck (h : s.Seated pool off) : s.grantCheck.Seated pool off := State.Seated.grantLoop _ h rfl

theorem State.Seated.release (h : s.Seated pool []) (hstate : (s.slot i).ctl.state = .ramping) :
    (s.release i).Seated pool [i] := by
  have hseat : s.seat [] i = .granted := by rw [State.seat_nil, hstate]; rfl
  have hdropped := h.dropped (i := i) (by rw [hseat]; decide)
  rw [h.dropPlace_queue (by rw [hseat]; decide)] at hdropped
  exact State.Seated.grantCheck hdropped

theorem State.Seated.depart (h : s.Seated pool []) (hstate : (s.slot i).ctl.state = .powerWait) :
    (s.depart i).Seated pool [i] := by
  have hseat : s.seat [] i = .queued := by rw [State.seat_nil, hstate]; rfl
  have hdropped := h.dropped (i := i) (by rw [hseat]; decide)
  rw [h.dropPlace_granted (by rw [hseat]; decide)] at hdropped
  unfold State.depart
  dsimp only
  split
  · exact State.Seated.grantCheck hdropped
  · exact hdropped

/-- R97, R141: the BUDGET failure, or a place in the queue and a grant check. -/
theorem State.Seated.enterPowerWait (h : s.Seated pool [i]) : (s.enterPowerWait i).Seated pool [] := by
  have hmoved : (s.drive i fun sl => sl.moveTo .powerWait).Seated pool [i] := by
    rw [State.drive_eq_moved]
    exact h.moved_off le_rfl
  unfold State.enterPowerWait
  dsimp only
  split
  · exact hmoved.budgetFailure
  · refine State.Seated.grantCheck (hmoved.enqueue List.not_mem_nil ?_ _)
    rw [State.drive_eq_moved, State.moved_state]
    rfl

theorem State.Seated.enterOff (h : s.Seated pool [i]) : (s.enterOff i).Seated pool [] :=
  .quiet (by exact h.drive_into _ .off (fun _ => rfl) (by decide) (by decide) fun _ => le_rfl)
    (State.quiet_reportState _ i _ _)

theorem State.Seated.enterEmpty (h : s.Seated pool [i]) : (s.enterEmpty i).Seated pool [] :=
  .quiet (by exact h.drive_into _ .empty (fun _ => rfl) (by decide) (by decide) fun _ => le_rfl)
    (State.quiet_reportState _ i _ _)

theorem State.Seated.dischargeCheck (h : s.Seated pool []) : (s.dischargeCheck i).Seated pool [] := by
  unfold State.dischargeCheck
  dsimp only
  split
  next hcheck =>
    have hstate : (s.slot i).ctl.state = .discharging := of_decide_eq_true (Bool.and_eq_true _ _ ▸ hcheck).1
    have hoff : s.Seated pool [i] := h.takeOff_none (by rw [hstate]; rfl)
    split
    · exact hoff.enterPowerWait
    · split
      · exact hoff.enterOff
      · exact hoff.enterEmpty
  next => exact h

theorem State.Seated.enterDischarging (h : s.Seated pool [i]) (t : Target) : (s.enterDischarging i t).Seated pool [] :=
  State.Seated.dischargeCheck (.quiet
    (by exact h.drive_into _ .discharging (fun _ => rfl) (by decide) (by decide) fun _ => le_rfl) (State.quiet_absorbHeld _ i))

theorem State.Seated.enterResetting (h : s.Seated pool [i]) : (s.enterResetting i).Seated pool [] :=
  h.drive_into _ .resetting (fun _ => rfl) (by decide) (by decide) fun _ => le_rfl

theorem State.Seated.enterTraining (h : s.Seated pool [i]) : (s.enterTraining i).Seated pool [] :=
  h.drive_into _ .training (fun _ => rfl) (by decide) (by decide) fun _ => le_rfl

theorem State.Seated.enterUpstream (h : s.Seated pool [i]) : (s.enterUpstream i).Seated pool [] :=
  h.drive_into _ .resetting (fun _ => rfl) (by decide) (by decide) fun _ => le_rfl

theorem State.Seated.startAttempt (h : s.Seated pool [i]) (k : ResetKind) (o : Origin) (n : Nat) :
    (s.startAttempt i k o n).Seated pool [] := by
  have hnoted := h.quiet (s.quiet_modSlot i
    (fun sl => { sl with ctl.attempts := n + 1, ctl.resetKind := some k, ctl.origin := some o }) (fun _ => rfl) fun _ => le_rfl)
  unfold State.startAttempt
  dsimp only
  split
  · exact hnoted.enterResetting
  · split
    · exact hnoted.enterPowerWait
    · exact hnoted.enterDischarging _

theorem State.Seated.firstAttempt (h : s.Seated pool [i]) : (s.firstAttempt i).Seated pool [] := h.startAttempt _ _ _

theorem State.Seated.enterIsolated (h : s.Seated pool [i]) : (s.enterIsolated i).Seated pool [] := by
  have hin : (s.drive i fun sl => { sl.moveTo .isolated with ctl.isoPolicy := some sl.policy.policy }).Seated pool [] :=
    h.drive_into _ .isolated (fun _ => rfl) (by decide) (by decide) fun _ => le_rfl
  have hreport := State.quiet_reportState (s.drive i fun sl =>
    { sl.moveTo .isolated with ctl.isoPolicy := some sl.policy.policy }) i
  unfold State.enterIsolated
  dsimp only
  split
  · refine State.Seated.firstAttempt ((hin.quiet (hreport _ _)).takeOff_none ?_)
    rw [(hreport _ _).state, State.drive_eq_moved, State.moved_state]
    rfl
  · exact (hin.quiet (hreport _ _)).quiet (State.quiet_modSlot _ i _ (fun _ => rfl) fun _ => le_rfl)
  · exact hin.quiet (hreport _ _)

/-! ### The replay -/

theorem State.Seated.enterOnline (h : s.Seated pool [i]) : (s.enterOnline i).Seated pool [] := by
  have hin : (s.drive i fun sl => sl.moveTo .online).Seated pool [] :=
    h.drive_into _ .online (fun _ => rfl) (by decide) (by decide) fun _ => le_rfl
  unfold State.enterOnline
  dsimp only
  generalize s.drive i (fun sl => sl.moveTo .online) = t at hin ⊢
  have hoffered := hin.offerHeld (i := i)
  generalize t.offerHeld i = u at hoffered ⊢
  split
  · refine State.Seated.quiet ?_ (State.quiet_reportState _ i _ _)
    exact hoffered.quiet (u.quiet_modSlot i _ (fun _ => rfl) fun _ => le_rfl)
  · refine State.Seated.quiet ?_ (State.quiet_modSlot _ i _ (fun _ => rfl) fun _ => le_rfl)
    refine State.Seated.quiet ?_ (State.quiet_reportRestored _ i _ _)
    refine State.Seated.quiet ?_ (State.quiet_reportState _ i _ _)
    exact hoffered.quiet (u.quiet_modSlot i _ (fun _ => rfl) fun _ => le_rfl)

theorem State.Seated.replayDone (h : s.Seated pool [i]) : (s.replayDone i).Seated pool [] :=
  State.Seated.enterOnline (h.quiet (s.quiet_modSlot i _ (fun _ => rfl) fun _ => le_rfl))

theorem State.Seated.replayNext (h : s.Seated pool []) (hstate : (s.slot i).ctl.state = .restoring) :
    (s.replayNext i).Seated pool [] := by
  unfold State.replayNext
  dsimp only
  split
  · exact h.quiet (s.quiet_issueWrite i _)
  · exact State.Seated.replayDone (h.takeOff_none (by rw [hstate]; rfl))

theorem State.Seated.enterRestoring (h : s.Seated pool [i]) : (s.enterRestoring i).Seated pool [] := by
  refine State.Seated.replayNext (h.drive_into _ .restoring (fun _ => rfl) (by decide) (by decide) fun _ => le_rfl) ?_
  rw [State.drive_eq_moved, State.moved_state]
  rfl

theorem State.Seated.replayCleared (h : s.Seated pool []) : (s.replayCleared i).Seated pool [] := by
  unfold State.replayCleared
  dsimp only
  split
  next hdone =>
    have hstate : (s.slot i).ctl.state = .restoring := of_decide_eq_true (Bool.and_eq_true _ _ ▸ hdone).1
    exact State.Seated.replayDone (h.takeOff_none (by rw [hstate]; rfl))
  next => exact h

/-! ### Failures and abandonment -/

/-- R89, R91: a slot that leaves the state of an attempt other than POWER_WAIT is between two states. -/
theorem State.Seated.leaveStage (h : s.Seated pool []) (hqueued : (s.slot i).ctl.state.seat ≠ .queued)
    (hpooled : (s.slot i).ctl.state.seat ≠ .pooled) : (s.leaveStage i).Seated pool [i] := by
  have hoff : (s.slot i).ctl.state ≠ .ramping → s.Seated pool [i] := fun hne =>
    h.takeOff hqueued (fun hg => hne ((SlotState.seat_granted_iff _).1 hg)) fun _ hp => absurd hp hpooled
  unfold State.leaveStage
  split
  next hstate => exact h.release hstate
  next hstate =>
    exact (hoff (by rw [hstate]; decide)).quiet (s.quiet_modSlot i _ (fun _ => rfl) fun _ => le_rfl)
  next hne _ => exact hoff hne

theorem State.Seated.attemptFailure (h : s.Seated pool []) (hqueued : (s.slot i).ctl.state.seat ≠ .queued)
    (hpooled : (s.slot i).ctl.state.seat ≠ .pooled) (r : Reason) : (s.attemptFailure i r).Seated pool [] := by
  unfold State.attemptFailure
  dsimp only
  have hleft := h.leaveStage hqueued hpooled
  generalize s.leaveStage i = t at hleft ⊢
  have hnoted : (t.modSlot i fun sl => { sl with ctl.reason := some r }).Seated pool [i] :=
    hleft.quiet (t.quiet_modSlot i _ (fun _ => rfl) fun _ => le_rfl)
  generalize (t.modSlot i fun sl => { sl with ctl.reason := some r }) = u at hnoted ⊢
  split
  · refine State.Seated.enterDischarging ?_ .bringUp
    exact (hnoted.quiet (u.quiet_report .attempt i _ _)).quiet (State.quiet_modSlot _ i _ (fun _ => rfl) fun _ => le_rfl)
  · exact State.Seated.enterQuarantined (hnoted.quiet (State.quiet_report _ _ i _ _)) .exhausted

theorem State.Seated.abandon (h : s.Seated pool []) (hpooled : (s.slot i).ctl.state.seat ≠ .pooled) (r : Reason) :
    (s.abandon i r).Seated pool [] := by
  unfold State.abandon
  split
  · exact h.quiet (s.quiet_modSlot i _ (fun _ => rfl) fun _ => le_rfl)
  · dsimp only
    have hleft : (if (s.slot i).ctl.state = .powerWait then s.depart i else s.leaveStage i).Seated pool [i] := by
      split
      next hstate => exact h.depart hstate
      next hne => exact h.leaveStage (fun hq => hne ((SlotState.seat_queued_iff _).1 hq)) hpooled
    generalize (if (s.slot i).ctl.state = .powerWait then s.depart i else s.leaveStage i) = t at hleft ⊢
    refine State.Seated.enterDischarging ?_ .off
    exact hleft.quiet (t.quiet_modSlot i _ (fun _ => rfl) fun _ => le_rfl)

theorem State.Seated.abandonAttempt (h : s.Seated pool []) (hpooled : (s.slot i).ctl.state.seat ≠ .pooled) (r : Reason) :
    (s.abandonAttempt i r).Seated pool [] := by
  unfold State.abandonAttempt
  split
  · exact h
  · exact h.abandon hpooled r

theorem State.Seated.powerAway (h : s.Seated pool []) (hseat : (s.slot i).ctl.state.seat = .none) (r : Reason) :
    (s.powerAway i r).Seated pool [] := by
  refine State.Seated.enterDischarging ?_ .off
  exact (h.takeOff_none hseat).quiet (s.quiet_modSlot i _ (fun _ => rfl) fun _ => le_rfl)

end

end Sys2Proof.Machine
end

section
/-! The events, the requests and the seats: each keeps the seats right; so does the step. -/

namespace Sys2Proof.Machine

section
variable {s : State} {pool : Prop} {i : SlotId}

/-! ### Fencing -/

theorem State.Seated.sweepLoop (l : List Entry) : ∀ {s : State}, s.Seated pool [] →
    (State.sweepLoop i l s).Seated pool [] := by
  induction l with
  | nil => exact fun h => h
  | cons e rest ih => exact fun h => ih ((h.quiet (State.quiet_answerEntry _ i e)).freeEntry e.tag)

theorem State.Seated.leaveFencing (h : s.Seated pool [i]) : (s.leaveFencing i).Seated pool [] := by
  unfold State.leaveFencing
  split
  · exact h.enterDischarging .off
  · exact h.enterIsolated

theorem Slot.not_serving_of_fencing {sl : Slot} (h : sl.ctl.state = .fencing) : ¬ sl.serving := by
  rw [Slot.serving, h]
  decide

/-- R37: a sweep of a slot in FENCING leaves it there with nothing pending, so it may leave. -/
theorem State.Seated.swept (h : s.Seated pool []) (hstate : (s.slot i).ctl.state = .fencing) :
    (s.sweep i).Seated pool [i] := by
  have hswept : (s.sweep i).slot i = (s.sweeps i).slot i := by rw [State.sweep_eq (Slot.not_serving_of_fencing hstate)]
  rw [State.slot_sweeps (Slot.not_serving_of_fencing hstate)] at hswept
  have hseat : (s.sweep i).seat [] i = .pooled := by rw [State.seat_nil, hswept]; exact congrArg SlotState.seat hstate
  have hloop : (s.sweep i).Seated pool [] := State.Seated.sweepLoop _ h
  refine hloop.takeOff (by rw [hseat]; decide) (by rw [hseat]; decide) fun _ _ => ?_
  rw [hswept]

theorem State.Seated.endDrain (h : s.Seated pool []) (hstate : (s.slot i).ctl.state = .fencing) :
    (s.endDrain i).Seated pool [] := State.Seated.leaveFencing (h.swept hstate)

/-- R62, R63: what follows the entry to FENCING: the holds answered, the report, and the end of the drain if it is due. -/
theorem State.Seated.fenced {t : State} (h : t.Seated pool []) (hstate : (t.slot i).ctl.state = .fencing) (r : Option Reason)
    (v : Option Nat) (ends : Bool) :
    (if ends = true then (((t.absorbHeld i).blockHeld i).reportState i r v).endDrain i
      else ((t.absorbHeld i).blockHeld i).reportState i r v).Seated pool [] := by
  have hquiet : t.Quiet (((t.absorbHeld i).blockHeld i).reportState i r v) :=
    (t.quiet_absorbHeld i).trans ((State.quiet_blockHeld _ i).trans (State.quiet_reportState _ i r v))
  split
  · exact (h.quiet hquiet).endDrain ((hquiet.state i).trans hstate)
  · exact h.quiet hquiet

theorem State.Seated.fence (h : s.Seated pool []) (r : Reason) (d : Disposition) : (s.fence i r d).Seated pool [] := by
  refine h.when fun hserves => State.Seated.fenced ?_ ?_ _ _ _
  · exact h.drive_pooled _ (Slot.seat_of_serving ((s.slot i).inService_iff.1 hserves)) rfl le_rfl
  · rw [State.drive_eq_moved, State.moved_state]
    rfl

theorem State.Seated.removeEntry (h : s.Seated pool []) (tag : Tag) : (s.removeEntry i tag).Seated pool [] := by
  have hfreed : (s.freeEntry i tag).Seated pool [] := h.freeEntry tag
  unfold State.removeEntry
  dsimp only
  split
  next hends =>
    obtain ⟨hstate, hempty⟩ : ((s.freeEntry i tag).slot i).ctl.state = .fencing ∧ ((s.freeEntry i tag).slot i).entries = [] := by
      simpa using hends
    have hseat : (s.freeEntry i tag).seat [] i = .pooled := by rw [State.seat_nil, hstate]; rfl
    exact (hfreed.takeOff (by rw [hseat]; decide) (by rw [hseat]; decide) fun _ _ => hempty).leaveFencing
  next => exact hfreed

theorem State.Seated.drainExpiry (h : s.Seated pool []) : (s.drainExpiry i).Seated pool [] :=
  h.when fun hdue => h.endDrain (of_decide_eq_true (Bool.and_eq_true_iff.1 hdue).1)

theorem State.Seated.overcurrentInFencing (h : s.Seated pool []) (hstate : (s.slot i).ctl.state = .fencing) :
    (s.overcurrentInFencing i).Seated pool [] := by
  have hcut := s.quiet_drive i (fun sl => { sl with ctl.powerCut := true }) (fun _ => rfl) fun _ => le_rfl
  exact (h.quiet hcut).endDrain ((hcut.state i).trans hstate)

theorem State.Seated.removedInFencing (h : s.Seated pool []) (hstate : (s.slot i).ctl.state = .fencing) :
    (s.removedInFencing i).Seated pool [] := State.Seated.enterDischarging (h.swept hstate) .off

/-! ### Scoring -/

theorem State.Seated.enterService (h : s.Seated pool []) (hserves : (s.slot i).serving) {st : SlotState} (hst : st.seat = .pooled) :
    (s.enterService i st).Seated pool [] :=
  .quiet (by exact h.drive_pooled _ (Slot.seat_of_serving hserves) hst le_rfl) (State.quiet_reportState _ i _ _)

/-- R50: an evaluation acts on a slot in service only. -/
theorem State.serving_of_verdict (hacts : s.verdict i ≠ .stay) : (s.slot i).serving := by
  by_contra hclosed
  exact hacts (by simp [State.verdict, Scorer.verdict, Slot.isOpen_of_not_serving hclosed])

theorem State.Seated.evaluate (h : s.Seated pool []) (why : Reason) : (s.evaluate i why).Seated pool [] := by
  unfold State.evaluate
  split
  · exact h
  · exact (h.quiet (s.quiet_report _ i _ _)).fence _ _
  next hverdict => exact h.enterService (State.serving_of_verdict (by rw [hverdict]; decide)) rfl
  next hverdict => exact h.enterService (State.serving_of_verdict (by rw [hverdict]; decide)) rfl

theorem State.Seated.cardFault (h : s.Seated pool []) (weight : Nat) (why : Reason) :
    (s.cardFault i weight why).Seated pool [] := by
  refine h.when fun _ => State.Seated.evaluate ?_ why
  exact h.quiet (s.quiet_modSlot i _ (fun _ => rfl) fun _ => le_rfl)

theorem State.Seated.evaluateAll (n : Nat) : ∀ (l : List SlotId) {s : State}, s.Seated pool [] →
    (State.evaluateAll n l s).Seated pool [] := by
  induction n with
  | zero =>
    rintro (_ | ⟨i, _ | ⟨j, rest⟩⟩) s h
    · exact h
    · exact h.evaluate .decay
    · exact h
  | succ n ih =>
    rintro (_ | ⟨i, _ | ⟨j, rest⟩⟩) s h
    · exact h
    · exact h.evaluate .decay
    · have hcounted : ({ s with freeCount := s.freeCount + 1 } : State).Seated pool [] := h.quiet (.shared rfl rfl rfl)
      exact ih _ (hcounted.evaluate .decay)

theorem State.quiet_mapSlots (s : State) (f : Slot → Slot) (hstate : ∀ a, (f a).ctl.state = a.ctl.state)
    (hfewer : ∀ a, (f a).entries.length ≤ a.entries.length) : s.Quiet (s.mapSlots f) :=
  ⟨rfl, rfl, fun j => by rw [State.slot_mapSlots, hstate], fun j => by rw [State.slot_mapSlots]; exact hfewer _⟩

theorem State.Seated.decayEvent (h : s.Seated pool []) : s.decayEvent.Seated pool [] := by
  refine h.when fun _ => State.Seated.evaluateAll _ _ (State.Seated.quiet ?_ (State.quiet_mapSlots _ Slot.decay ?_ ?_))
  · exact h.quiet (.shared rfl rfl rfl)
  · exact fun _ => rfl
  · exact fun _ => le_rfl

theorem State.Seated.calertAssertion (h : s.Seated pool []) : (s.calertAssertion i).Seated pool [] := by
  have hlevel := h.quiet (s.quiet_modSlot i (fun sl => { sl with pins.calert := true }) (fun _ => rfl) fun _ => le_rfl)
  exact h.when fun _ => hlevel.when fun _ => hlevel.fence _ _

/-! ### The pending table -/

theorem Slot.capture_keeps (sl : Slot) (f : List Span) (e : Entry) (c : Completion) :
    (sl.capture f e c).ctl.state = sl.ctl.state ∧ (sl.capture f e c).entries.length ≤ sl.entries.length := by
  unfold Slot.capture
  dsimp only
  split <;> split <;> exact ⟨rfl, le_rfl⟩

theorem State.Seated.matchCompletion (h : s.Seated pool []) (c : Completion) : (s.matchCompletion i c).Seated pool [] := by
  unfold State.matchCompletion
  split
  · exact h.cardFault _ _
  next e _ =>
    split
    · exact h.cardFault _ _
    · refine State.Seated.quiet (h.quiet (s.quiet_toHost i _)) (State.quiet_modSlot _ i _ ?_ ?_)
      · exact fun _ => rfl
      · exact fun a => (List.length_map _).le
    · refine State.Seated.removeEntry (State.Seated.quiet (h.quiet (s.quiet_toHost i _)) (State.quiet_modSlot _ i _ ?_ ?_)) _
      · exact fun a => (a.capture_keeps s.filter e c).1
      · exact fun a => (a.capture_keeps s.filter e c).2

theorem State.Seated.entryExpiry (h : s.Seated pool []) (tag : Tag) : (s.entryExpiry i tag).Seated pool [] := by
  unfold State.entryExpiry
  split
  · exact h
  · exact State.Seated.cardFault (State.Seated.removeEntry (h.quiet (s.quiet_answerEntry i _)) _) _ _

theorem State.Seated.holdExpiry (h : s.Seated pool []) : (s.holdExpiry i).Seated pool [] := by
  have hemptied := h.quiet (s.quiet_emptyHold i)
  unfold State.holdExpiry
  split
  · exact h
  · refine h.when fun _ => State.Seated.cardFault ?_ _ _
    split
    · exact hemptied.quiet (State.quiet_countDropped _ i)
    · exact hemptied.quiet ((State.quiet_toHost _ i _).trans (State.quiet_countAbsorbed _ i))

/-! ### The card's own requests -/

theorem State.Seated.errant (h : s.Seated pool []) (addr : BitVec 48) (why : Reason) : (s.errant i addr why).Seated pool [] := by
  refine State.Seated.cardFault ?_ _ _
  split
  · exact h
  · refine State.Seated.quiet ?_ (State.quiet_modSlot _ i _ (fun _ => rfl) fun _ => le_rfl)
    exact h.quiet (s.quiet_report _ i _ _)

theorem State.Seated.throughChecker (h : s.Seated pool []) (r : Request) : (s.throughChecker i r).Seated pool [] := by
  unfold State.throughChecker
  split
  · split
    · refine State.Seated.quiet ?_ (State.quiet_modSlot _ i _ (fun _ => rfl) fun _ => le_rfl)
      exact h.quiet (s.quiet_toHost i _)
    · exact State.Seated.errant (h.quiet (s.quiet_toCard i _)) _ _
  · split
    · exact h.quiet (s.quiet_toHost i _)
    · exact h.errant _ _
  · exact h.quiet (s.quiet_toHost i _)

theorem State.Seated.cardOpen (h : s.Seated pool []) (r : Request) : (s.cardOpen i r).Seated pool [] := by
  unfold State.cardOpen
  split
  · exact h.throughChecker r
  · dsimp only
    split
    · split
      · exact h.quiet (s.quiet_holdCard i r)
      · exact h.quiet ((s.quiet_toCard i _).trans (State.quiet_report _ _ i _ _))
    · split
      · exact h.quiet (s.quiet_holdCard i r)
      · exact h.throughChecker r

theorem State.Seated.cardArrive (h : s.Seated pool []) (r : Request) : (s.cardArrive i r).Seated pool [] := by
  unfold State.cardArrive
  split
  · exact h.quiet (s.quiet_toCard i _)
  · split
    · exact h.cardOpen r
    · exact h.quiet (s.quiet_blockCard i r)

theorem State.Seated.cardRequest (h : s.Seated pool []) (r : Request) : (s.cardRequest i r).Seated pool [] := by
  unfold State.cardRequest
  refine h.when fun _ => ?_
  split
  · exact h.quiet (s.quiet_modSlot i _ (fun _ => rfl) fun _ => le_rfl)
  · exact h.cardArrive r

theorem State.Seated.takeCardWaiting (h : s.Seated pool []) : (s.takeCardWaiting i).Seated pool [] := by
  unfold State.takeCardWaiting
  split
  · exact h
  · refine State.Seated.cardArrive ?_ _
    exact h.quiet (s.quiet_modSlot i _ (fun _ => rfl) fun _ => le_rfl)

theorem State.Seated.retryCard (h : s.Seated pool []) : (s.retryCard i).Seated pool [] := by
  unfold State.retryCard
  split
  · exact h
  · refine h.when fun _ => State.Seated.cardOpen ?_ _
    exact h.quiet (s.quiet_modSlot i _ (fun _ => rfl) fun _ => le_rfl)

theorem State.Seated.leaveOutbound (h : s.Seated pool []) (tag : Tag) : (s.leaveOutbound i tag).Seated pool [] := by
  refine State.Seated.retryCard ?_
  exact h.quiet (s.quiet_modSlot i _ (fun _ => rfl) fun _ => le_rfl)

theorem State.Seated.hostCompletion (h : s.Seated pool []) (c : Completion) : (s.hostCompletion i c).Seated pool [] := by
  refine h.when fun _ => ?_
  unfold State.takeHostCompletion
  dsimp only
  split
  next t _ =>
    have hpassed : (if ((s.slot i).inService && !t.ghost) = true then s.toCard i (.completion c) else s).Seated pool [] := by
      split
      · exact h.quiet (s.quiet_toCard i _)
      · exact h
    split
    · exact hpassed.leaveOutbound _
    · exact hpassed
  next =>
    split
    · exact h.quiet (s.quiet_report _ i _ _)
    · exact h

theorem State.Seated.ghostDeadline (h : s.Seated pool []) : (s.ghostDeadline i).Seated pool [] := by
  refine h.when fun _ => State.Seated.retryCard ?_
  exact h.quiet (s.quiet_modSlot i _ (fun _ => rfl) fun _ => le_rfl)

/-! ### The links -/

theorem State.Seated.linkDown (h : s.Seated pool []) : (s.linkDown i).Seated pool [] := by
  have hdown := h.quiet
    (s.quiet_modSlot i (fun sl => { sl with chan.linkUp := false, chan.cardWaiting := [] }) (fun _ => rfl) fun _ => le_rfl)
  unfold State.linkDown
  dsimp only
  generalize State.modSlot s i _ = t at hdown ⊢
  split
  · have hweighed := hdown.cardFault (i := i) t.scorer.linkDown .linkDown
    generalize State.cardFault _ _ _ _ = u at hweighed ⊢
    exact hweighed.when fun _ => hweighed.quiet (u.quiet_modSlot i _ (fun _ => rfl) fun _ => le_rfl)
  · split
    next hstate => exact hdown.attemptFailure (by rw [hstate]; decide) (by rw [hstate]; decide) .link
    next => exact hdown

theorem State.Seated.linkUp (h : s.Seated pool []) : (s.linkUp i).Seated pool [] := by
  have hup := h.quiet (s.quiet_modSlot i (fun sl => { sl with chan.linkUp := true }) (fun _ => rfl) fun _ => le_rfl)
  unfold State.linkUp
  dsimp only
  generalize State.modSlot s i _ = t at hup ⊢
  split
  · refine State.Seated.offerHeld ?_
    exact hup.quiet (t.quiet_modSlot i _ (fun _ => rfl) fun _ => le_rfl)
  · split
    next hstate => exact (hup.takeOff_none (by rw [hstate]; rfl)).enterRestoring
    next => exact hup

theorem State.Seated.graceExpiry (h : s.Seated pool []) : (s.graceExpiry i).Seated pool [] := h.when fun _ => h.fence _ _

theorem State.Seated.discardLoop (l : List Entry) : ∀ {s : State}, s.Seated pool [] →
    (State.discardLoop i l s).Seated pool [] := by
  induction l with
  | nil => exact fun h => h
  | cons e rest ih => exact fun h => ih (h.freeEntry e.tag)

/-- R18, R40: an upstream reset empties the slot's list, in the state it has. -/
theorem State.slot_upstreamClear_discard (s : State) (i : SlotId) :
    (((s.upstreamClear i).discardEntries i).slot i).entries = []
      ∧ (((s.upstreamClear i).discardEntries i).slot i).ctl.state = (s.slot i).ctl.state := by
  have hhold : ((s.upstreamClear i).slot i).chan.hold = none := by rw [State.upstreamClear, State.slot_emptyHold]
  rw [State.discardEntries_eq hhold, State.slot_discards hhold]
  exact ⟨rfl, (s.quiet_upstreamClear i).state i⟩

theorem State.Seated.upstreamReset (h : s.Seated pool []) : (s.upstreamReset i).Seated pool [] := by
  obtain ⟨hempty, -⟩ := s.slot_upstreamClear_discard i
  have hcleared : ((s.upstreamClear i).discardEntries i).Seated pool [] :=
    State.Seated.discardLoop _ (h.quiet (s.quiet_upstreamClear i))
  unfold State.upstreamReset
  dsimp only
  generalize State.discardEntries _ _ = t at hcleared hempty ⊢
  have hoff (hseat : (t.slot i).ctl.state.seat = .pooled) : t.Seated pool [i] :=
    hcleared.takeOff (by rw [State.seat_nil, hseat]; decide) (by rw [State.seat_nil, hseat]; decide) fun _ _ => hempty
  split
  next hserves => exact (hoff (Slot.seat_of_serving ((t.slot i).inService_iff.1 hserves))).enterUpstream
  next =>
    split
    next hstate => exact (hoff (by rw [hstate]; rfl)).leaveFencing
    next => exact hcleared.replayCleared

theorem State.Seated.upstreamRelease (h : s.Seated pool []) : (s.upstreamRelease i).Seated pool [] := by
  refine h.when fun _ => ?_
  exact h.quiet (s.quiet_modSlot i _ (fun _ => rfl) fun _ => le_rfl)

theorem State.Seated.dropImage (h : s.Seated pool []) : (s.dropImage i).Seated pool [] := by
  refine State.Seated.replayCleared ?_
  exact h.quiet (s.quiet_modSlot i _ (fun _ => rfl) fun _ => le_rfl)

/-! ### The slot timers of an attempt -/

theorem State.Seated.minOffExpiry (h : s.Seated pool []) : (s.minOffExpiry i).Seated pool [] := by
  refine h.when fun _ => State.Seated.dischargeCheck ?_
  exact h.quiet (s.quiet_modSlot i _ (fun _ => rfl) fun _ => le_rfl)

theorem State.Seated.dischargeExpiry (h : s.Seated pool []) : (s.dischargeExpiry i).Seated pool [] := by
  refine h.when fun hdue => State.Seated.enterQuarantined ?_ _
  have hstate : (s.slot i).ctl.state = .discharging := of_decide_eq_true (Bool.and_eq_true_iff.1 hdue).1
  have hoff : s.Seated pool [i] := h.takeOff_none (by rw [hstate]; rfl)
  split
  · exact hoff.quiet (s.quiet_report _ i _ _)
  · exact hoff

theorem State.Seated.rampExpiry (h : s.Seated pool []) : (s.rampExpiry i).Seated pool [] := by
  refine h.when fun hdue => ?_
  have hstate : (s.slot i).ctl.state = .ramping := of_decide_eq_true (Bool.and_eq_true_iff.1 hdue).1
  split
  · exact (h.release hstate).enterResetting
  · exact h.attemptFailure (by rw [hstate]; decide) (by rw [hstate]; decide) .rail

theorem State.Seated.pulseExpiry (h : s.Seated pool []) : (s.pulseExpiry i).Seated pool [] := by
  refine h.when fun hdue => State.Seated.enterTraining (h.takeOff_none ?_)
  rw [show (s.slot i).ctl.state = .resetting from of_decide_eq_true (Bool.and_eq_true_iff.1 hdue).1]
  rfl

theorem State.Seated.trainingExpiry (h : s.Seated pool []) : (s.trainingExpiry i).Seated pool [] := by
  refine h.when fun hdue => ?_
  have hstate : (s.slot i).ctl.state = .training := of_decide_eq_true (Bool.and_eq_true_iff.1 hdue).1
  exact h.attemptFailure (by rw [hstate]; decide) (by rw [hstate]; decide) _

/-- In RESTORING any failure takes the slot through R89. -/
theorem State.Seated.restoringFailure (h : s.Seated pool []) (hstate : (s.slot i).ctl.state = .restoring) (r : Reason) :
    (s.attemptFailure i r).Seated pool [] := h.attemptFailure (by rw [hstate]; decide) (by rw [hstate]; decide) r

theorem State.Seated.restoreExpiry (h : s.Seated pool []) : (s.restoreExpiry i).Seated pool [] :=
  h.when fun hdue => h.restoringFailure (of_decide_eq_true (Bool.and_eq_true_iff.1 hdue).1) _

theorem State.Seated.replayDeadline (h : s.Seated pool []) : (s.replayDeadline i).Seated pool [] :=
  h.when fun hdue => h.restoringFailure (of_decide_eq_true (Bool.and_eq_true_iff.1 hdue).1) _

theorem State.Seated.resendExpiry (h : s.Seated pool []) : (s.resendExpiry i).Seated pool [] := by
  refine h.when fun hdue => State.Seated.replayNext ?_ ?_
  · exact h.quiet (s.quiet_modSlot i _ (fun _ => rfl) fun _ => le_rfl)
  · rw [State.slot_modSlot_self]
    exact of_decide_eq_true (Bool.and_eq_true_iff.1 hdue).1

theorem State.Seated.decisionExpiry (h : s.Seated pool []) : (s.decisionExpiry i).Seated pool [] := by
  refine h.when fun hdue => ?_
  have hstate : (s.slot i).ctl.state = .isolated := of_decide_eq_true (Bool.and_eq_true_iff.1 hdue).1
  have hoff : s.Seated pool [i] := h.takeOff_none (by rw [hstate]; rfl)
  split
  · exact hoff.firstAttempt
  · exact hoff.enterQuarantined .lapse

theorem State.Seated.replayCompletion (h : s.Seated pool []) (c : Completion) : (s.replayCompletion i c).Seated pool [] := by
  unfold State.replayCompletion
  dsimp only
  split
  next hfits =>
    have hstate : (s.slot i).ctl.state = .restoring := of_decide_eq_true (Bool.and_eq_true_iff.1 hfits).1
    split
    · split
      · refine State.Seated.replayNext ?_ ?_
        · exact h.quiet (s.quiet_modSlot i _ (fun _ => rfl) fun _ => le_rfl)
        · rw [State.slot_modSlot_self]
          exact hstate
      · exact h
    · exact h.quiet (s.quiet_modSlot i _ (fun _ => rfl) fun _ => le_rfl)
    · exact h.restoringFailure hstate _
  next => exact h

theorem State.Seated.cardCompletion (h : s.Seated pool []) (d : Addressee) (c : Completion) :
    (s.cardCompletion i d c).Seated pool [] := by
  refine h.when fun _ => ?_
  cases d with
  | part => exact h.replayCompletion c
  | host => exact h.when fun _ => h.matchCompletion c

/-! ### Pins, presence and rails -/

theorem State.Seated.insertion (h : s.Seated pool []) : (s.insertion i).Seated pool [] := by
  have hpresent := h.quiet (s.quiet_modSlot i (fun sl => { sl with ctl.present := true }) (fun _ => rfl) fun _ => le_rfl)
  unfold State.insertion
  dsimp only
  generalize State.modSlot s i _ = t at hpresent ⊢
  refine hpresent.when fun hempty => ?_
  have hstate : (t.slot i).ctl.state = .empty := of_decide_eq_true hempty
  have hoff := State.Seated.quiet (hpresent.takeOff_none (i := i) (by rw [hstate]; rfl))
    (t.quiet_modSlot i (fun sl => { sl with ctl.reason := some .inserted }) (fun _ => rfl) fun _ => le_rfl)
  generalize State.modSlot t i _ = u at hoff ⊢
  split
  · exact hoff.startAttempt _ _ _
  · exact hoff.enterOff

theorem State.Seated.loss (h : s.Seated pool []) : (s.loss i).Seated pool [] := by
  have hgone := h.quiet (s.quiet_modSlot i (fun sl => { sl with ctl.present := false }) (fun _ => rfl) fun _ => le_rfl)
  unfold State.loss
  dsimp only
  generalize State.modSlot s i _ = t at hgone ⊢
  split
  case h_1 => exact hgone
  case h_2 hstate => exact (hgone.takeOff_none (by rw [hstate]; rfl)).enterEmpty
  case h_3 => exact hgone.fence _ _
  case h_4 => exact hgone.fence _ _
  case h_5 hstate => exact hgone.removedInFencing hstate
  case h_6 hstate => exact hgone.powerAway (by rw [hstate]; rfl) _
  case h_7 hstate => exact hgone.powerAway (by rw [hstate]; rfl) _
  case h_8 hne₁ hne₂ hne₃ hne₄ hne₅ hne₆ hne₇ =>
    refine hgone.abandonAttempt (fun hseat => ?_) _
    obtain honline | hsuspect | hfencing := (SlotState.seat_pooled_iff _).1 hseat
    · exact hne₃ honline
    · exact hne₄ hsuspect
    · exact hne₅ hfencing

theorem State.Seated.debounceExpiry (h : s.Seated pool []) : (s.debounceExpiry i).Seated pool [] := by
  refine h.when fun _ => ?_
  have hdelivered := h.quiet (s.quiet_modSlot i
    (fun sl => { sl with pins.delivered := (s.slot i).pins.prsnt, pins.debounce := none, pins.startUp := false })
    (fun _ => rfl) fun _ => le_rfl)
  dsimp only
  generalize State.modSlot s i _ = t at hdelivered ⊢
  split
  · exact State.Seated.insertion (hdelivered.quiet (t.quiet_report _ i _ _))
  · exact State.Seated.loss (hdelivered.quiet (t.quiet_report _ i _ _))

theorem State.Seated.overcurrentByState (h : s.Seated pool []) : (s.overcurrentByState i).Seated pool [] := by
  have hfails (hqueued : (s.slot i).ctl.state.seat ≠ .queued) (hpooled : (s.slot i).ctl.state.seat ≠ .pooled) :=
    h.attemptFailure hqueued hpooled .overcurrent
  unfold State.overcurrentByState
  split
  case h_1 => exact h.fence _ _
  case h_2 => exact h.fence _ _
  case h_3 hstate => exact h.overcurrentInFencing hstate
  case h_4 => exact h.quiet (s.quiet_drive i _ (fun _ => rfl) fun _ => le_rfl)
  case h_5 hstate => exact hfails (by rw [hstate]; decide) (by rw [hstate]; decide)
  case h_6 hstate => exact hfails (by rw [hstate]; decide) (by rw [hstate]; decide)
  case h_7 hstate => exact hfails (by rw [hstate]; decide) (by rw [hstate]; decide)
  case h_8 hstate => exact hfails (by rw [hstate]; decide) (by rw [hstate]; decide)
  case h_9 => exact h

theorem State.Seated.overcurrent (h : s.Seated pool []) (why : Reason) (n : Nat) : (s.overcurrent i why n).Seated pool [] :=
  State.Seated.overcurrentByState (h.quiet ((s.quiet_report _ i _ _).trans (State.quiet_forceLive _ i)))

theorem State.Seated.currentSample (h : s.Seated pool []) (n : Nat) : (s.currentSample i n).Seated pool [] := by
  unfold State.currentSample
  refine h.when fun _ => ?_
  split
  · exact h.quiet (s.quiet_modSlot i _ (fun _ => rfl) fun _ => le_rfl)
  · split
    · exact h.quiet (s.quiet_modSlot i _ (fun _ => rfl) fun _ => le_rfl)
    · refine State.Seated.overcurrent ?_ _ _
      exact h.quiet (s.quiet_modSlot i _ (fun _ => rfl) fun _ => le_rfl)

theorem State.Seated.keepResult (h : s.Seated pool []) (place : Nat) (r : RailResult) :
    (s.keepResult i place r).Seated pool [] := by
  unfold State.keepResult
  split
  · refine State.Seated.dischargeCheck ?_
    exact h.quiet (s.quiet_modSlot i _ (fun _ => rfl) fun _ => le_rfl)
  · refine State.Seated.dischargeCheck ?_
    exact h.quiet (s.quiet_modSlot i _ (fun _ => rfl) fun _ => le_rfl)
  · refine State.Seated.currentSample ?_ _
    exact h.quiet (s.quiet_modSlot i _ (fun _ => rfl) fun _ => le_rfl)

theorem State.Seated.conversionEnd (h : s.Seated pool []) (q : Quantity) : (s.conversionEnd q).Seated pool [] := by
  have hnext : s.nextConversion.Seated pool [] := h.quiet (s.quiet_monitor _)
  refine h.when fun _ => ?_
  dsimp only
  split
  · exact hnext
  · exact hnext.keepResult _ _

end

end Sys2Proof.Machine
end

section
/-! The requests of the management link, the line, the resets, the step, and the seats: with them the arbiter's and the pool's soundness
(R137, R140, R148, R22, R41). -/

namespace Sys2Proof.Machine

section
variable {s : State} {pool : Prop} {i : SlotId}

/-! ### Requests -/

/-- A request carried out leaves the part as it became. -/
theorem State.Seated.done (h : s.Seated pool []) (status : ReplyStatus) : (s.done status).after.Seated pool [] := h

theorem State.Seated.doSlotSet (h : s.Seated pool []) (r : RawPolicy) : (s.doSlotSet i r).after.Seated pool [] := by
  unfold State.doSlotSet
  split
  · exact h
  next sent _ =>
    have hset := h.quiet (s.quiet_modSlot i (fun sl => { sl with policy := sent.clamped (s.slot i).ctl.attempts })
      (fun _ => rfl) fun _ => le_rfl)
    dsimp only [State.done]
    generalize State.modSlot s i _ = t at hset ⊢
    split
    · exact hset.quotaOffer
    · exact hset

theorem State.Seated.doFence (h : s.Seated pool []) : (s.doFence i).after.Seated pool [] := by
  unfold State.doFence
  split
  · exact h.fence _ _
  · exact h

theorem State.Seated.doRecover (h : s.Seated pool []) (k : Byte) : (s.doRecover i k).after.Seated pool [] := by
  unfold State.doRecover
  dsimp only
  split
  · exact h
  · split
    · exact h
    · split
      next hstate => exact (h.takeOff_none (by rw [hstate]; rfl)).startAttempt _ _ _
      next =>
        split
        next hquarantined =>
          have hstate : (s.slot i).ctl.state = .quarantined := of_decide_eq_true (Bool.and_eq_true_iff.1 hquarantined).1
          exact ((h.takeOff_none (by rw [hstate]; rfl)).startAttempt _ _ _).done _
        next => exact h

theorem State.Seated.doQuar (h : s.Seated pool []) : (s.doQuar i).after.Seated pool [] := by
  unfold State.doQuar
  split
  next hstate => exact (h.takeOff_none (by rw [hstate]; rfl)).enterQuarantined .ordered
  next => exact h

theorem State.Seated.doPwrOn (h : s.Seated pool []) : (s.doPwrOn i).after.Seated pool [] := by
  unfold State.doPwrOn
  split
  next hoff =>
    have hstate : (s.slot i).ctl.state = .off := of_decide_eq_true (Bool.and_eq_true_iff.1 hoff).1
    refine (State.Seated.startAttempt ?_ _ _ _).done _
    exact (h.takeOff_none (by rw [hstate]; rfl)).quiet (s.quiet_modSlot i _ (fun _ => rfl) fun _ => le_rfl)
  next => exact h

theorem State.Seated.doPwrOff (h : s.Seated pool []) : (s.doPwrOff i).after.Seated pool [] := by
  unfold State.doPwrOff
  split
  · exact h
  · split
    case h_1 => exact h
    case h_2 => exact h
    case h_3 => exact h.fence _ _
    case h_4 => exact h.fence _ _
    case h_5 => exact h
    case h_6 hstate => exact h.powerAway (by rw [hstate]; rfl) _
    case h_7 hstate =>
      have hoff := State.Seated.quiet (h.takeOff_none (i := i) (by rw [hstate]; rfl))
        (s.quiet_modSlot i (fun sl => { sl with ctl.reason := some .command }) (fun _ => rfl) fun _ => le_rfl)
      dsimp only [State.done]
      generalize State.modSlot s i _ = t at hoff ⊢
      split
      · exact hoff.enterOff
      · exact hoff.enterEmpty
    case h_8 hne₁ hne₂ hne₃ hne₄ hne₅ hne₆ hne₇ =>
      refine h.abandonAttempt (fun hseat => ?_) _
      obtain honline | hsuspect | hfencing := (SlotState.seat_pooled_iff _).1 hseat
      · exact hne₃ honline
      · exact hne₄ hsuspect
      · exact hne₅ hfencing

theorem State.Seated.doWinSet (h : s.Seated pool []) (ps : List (BitVec 40 × BitVec 40)) :
    (s.doWinSet i ps).after.Seated pool [] := by
  unfold State.doWinSet
  split
  · exact h
  · refine State.Seated.done ?_ _
    exact h.quiet (s.quiet_modSlot i _ (fun _ => rfl) fun _ => le_rfl)

theorem State.Seated.doImgPut (h : s.Seated pool []) (o : BitVec 16) (v : Dword) (m : Byte) :
    (s.doImgPut i o v m).after.Seated pool [] := by
  unfold State.doImgPut
  dsimp only
  split
  · exact h
  · split
    · exact h
    · split
      · refine State.Seated.done ?_ _
        exact h.quiet (s.quiet_modSlot i _ (fun _ => rfl) fun _ => le_rfl)
      · split
        · refine State.Seated.done ?_ _
          exact h.quiet (s.quiet_modSlot i _ (fun _ => rfl) fun _ => le_rfl)
        · exact h

theorem State.Seated.doPinMode (h : s.Seated pool []) (m : Byte) : (s.doPinMode i m).after.Seated pool [] := by
  unfold State.doPinMode
  split
  · exact h
  · split
    · exact h
    · split
      · exact h.quiet (s.quiet_setPinMode i _)
      · exact h

theorem State.Seated.doPinLoad (h : s.Seated pool []) (a b c d : Byte) : (s.doPinLoad i a b c d).after.Seated pool [] := by
  unfold State.doPinLoad
  split
  · exact h
  · refine State.Seated.done ?_ _
    exact h.quiet (s.quiet_drive i _ (fun _ => rfl) fun _ => le_rfl)

theorem State.Seated.doPinSample (h : s.Seated pool []) : (s.doPinSample i).after.Seated pool [] := by
  unfold State.doPinSample
  dsimp only [State.tell]
  split
  · exact h.quiet (.shared rfl rfl rfl)
  · exact h

theorem State.Seated.doImgRead (h : s.Seated pool []) (x : Byte) : (s.doImgRead i x).after.Seated pool [] := by
  unfold State.doImgRead
  dsimp only
  split <;> exact h

theorem State.Seated.doId (h : s.Seated pool []) (holdOff : Option Byte) : (s.doId holdOff).after.Seated pool [] := by
  cases holdOff with
  | none => exact h
  | some n => exact h.quiet (.shared rfl rfl rfl)

theorem State.Seated.doDenySet (h : s.Seated pool []) (ps : List (BitVec 40 × BitVec 40)) :
    (s.doDenySet ps).after.Seated pool [] := by
  unfold State.doDenySet
  split
  · exact h
  · exact h.quiet (.shared rfl rfl rfl)

theorem State.Seated.doFilterSet (h : s.Seated pool []) (rs : List (BitVec 16 × BitVec 16)) :
    (s.doFilterSet rs).after.Seated pool [] := by
  unfold State.doFilterSet
  split
  · exact h
  · exact h.quiet (.shared rfl rfl rfl)

theorem State.Seated.doBudgetSet (h : s.Seated pool []) (b : Byte) : (s.doBudgetSet b).after.Seated pool [] :=
  State.Seated.grantCheck (h.quiet (.shared rfl rfl rfl))

theorem State.Seated.doScoreSet (h : s.Seated pool []) (p : RawScore) : (s.doScoreSet p).after.Seated pool [] := by
  unfold State.doScoreSet
  dsimp only
  split
  · exact h.quiet (.shared rfl rfl rfl)
  · exact h

theorem State.Seated.forSlot (h : s.Seated pool []) (sb : Byte) (f : SlotId → Answer)
    (hf : ∀ i, (f i).after.Seated pool []) : (s.forSlot sb f).after.Seated pool [] := by
  unfold State.forSlot
  split
  · exact hf _
  · exact h

theorem State.Seated.forPart (h : s.Seated pool []) (sb : Byte) {a : Answer} (ha : a.after.Seated pool []) :
    (s.forPart sb a).after.Seated pool [] := by
  unfold State.forPart
  split
  · exact ha
  · exact h

theorem State.Seated.perform (h : s.Seated pool []) (sb : Byte) (r : BmcRequest) : (s.perform sb r).after.Seated pool [] := by
  cases r with
  | id x => exact h.forPart sb (h.doId x)
  | slotGet => exact h.forSlot sb _ fun _ => h
  | slotSet p => exact h.forSlot sb _ fun _ => h.doSlotSet p
  | fence => exact h.forSlot sb _ fun _ => h.doFence
  | recover k => exact h.forSlot sb _ fun _ => h.doRecover k
  | quar => exact h.forSlot sb _ fun _ => h.doQuar
  | pwrOn => exact h.forSlot sb _ fun _ => h.doPwrOn
  | pwrOff => exact h.forSlot sb _ fun _ => h.doPwrOff
  | winSet ps => exact h.forSlot sb _ fun _ => h.doWinSet ps
  | denySet ps => exact h.forPart sb (h.doDenySet ps)
  | budgetSet b => exact h.forPart sb (h.doBudgetSet b)
  | scoreSet p => exact h.forPart sb (h.doScoreSet p)
  | imgRead x => exact h.forSlot sb _ fun _ => h.doImgRead x
  | imgPut o v m => exact h.forSlot sb _ fun _ => h.doImgPut o v m
  | imgDrop => exact h.forSlot sb _ fun _ => h.dropImage
  | filterSet rs => exact h.forPart sb (h.doFilterSet rs)
  | pinMode m => exact h.forSlot sb _ fun _ => h.doPinMode m
  | pinLoad a b c d => exact h.forSlot sb _ fun _ => h.doPinLoad a b c d
  | pinSample => exact h.forSlot sb _ fun _ => h.doPinSample
  | railRead => exact h.forSlot sb _ fun _ => h
  | reportTake => exact h.forPart sb (h.quiet (.shared rfl rfl rfl))
  | partReset => exact h.forPart sb h

/-! ### The line -/

theorem State.quiet_link (s : State) (l : Link) : s.Quiet { s with link := l } := .shared rfl rfl rfl

theorem State.Seated.reply {a : Answer} (h : a.after.Seated pool []) (code : Byte) (n m : Nat) :
    (State.reply a code n m).Seated pool [] := h.quiet (.shared rfl rfl rfl)

theorem State.Seated.takeRequest (h : s.Seated pool []) (sb : Byte) (r : BmcRequest) (n m : Nat) :
    (s.takeRequest sb r n m).Seated pool [] := (h.perform sb r).reply _ _ _

theorem State.Seated.takeFrame (h : s.Seated pool []) (p : List Byte) (n m : Nat) : (s.takeFrame p n m).Seated pool [] := by
  unfold State.takeFrame
  split
  · exact State.Seated.reply (a := s.refuse .unknown) h _ _ _
  · exact State.Seated.reply (a := s.refuse .length) h _ _ _
  · exact h.takeRequest _ _ _ _

theorem State.quiet_frameBusy (s : State) (p : List Byte) : s.Quiet (s.frameBusy p) := by
  unfold State.frameBusy
  split <;> exact s.quiet_link _

theorem State.Seated.frameComplete (h : s.Seated pool []) (p : List Byte) : (s.frameComplete p).Seated pool [] := by
  unfold State.frameComplete
  split
  · exact h.takeFrame p _ _
  · exact h.quiet (s.quiet_frameBusy p)

theorem State.Seated.submit (h : s.Seated pool []) (sb : Byte) (r : BmcRequest) : (s.submit sb r).Seated pool [] := by
  unfold State.submit
  split
  · exact h
  · split
    · exact h.takeRequest sb r _ _
    · exact h.quiet (s.quiet_frameBusy _)

theorem State.quiet_controlReset (s : State) : s.Quiet s.controlReset :=
  .trans (by exact s.quiet_mapSlots (fun sl => { sl with rails.runCount := 0 }) (fun _ => rfl) fun _ => le_rfl)
    (.shared (s := s.mapSlots fun sl => { sl with rails.runCount := 0 }) rfl rfl rfl)

theorem State.Seated.replySent (h : s.Seated pool []) : s.replySent.Seated pool [] := by
  unfold State.replySent
  split
  · exact h
  · refine h.when fun _ => ?_
    dsimp only
    split
    · exact State.Seated.quiet (h.quiet (s.quiet_link _)) (State.quiet_controlReset _)
    · split
      · exact h.quiet (s.quiet_link _)
      · exact State.Seated.takeFrame (h.quiet (s.quiet_link _)) _ _ _

theorem State.Seated.replyStart (h : s.Seated pool []) : s.replyStart.Seated pool [] := by
  unfold State.replyStart
  split
  · exact h
  · exact h.when fun _ => h.quiet (s.quiet_link _)

theorem State.Seated.goodCharacter (h : s.Seated pool []) (v : Byte) : (s.goodCharacter v).Seated pool [] := by
  unfold State.goodCharacter
  dsimp only
  split
  · split
    · exact h.quiet (s.quiet_link _)
    · exact h
  · split <;> exact h.quiet (s.quiet_link _)
  · exact h.quiet (s.quiet_link _)
  · split
    · exact State.Seated.frameComplete (h.quiet (s.quiet_link _)) _
    · exact h.quiet (s.quiet_link _)

theorem State.Seated.characterReceived (h : s.Seated pool []) (v : Byte) (b : Bool) :
    (s.characterReceived v b).Seated pool [] := by
  refine h.when fun _ => ?_
  split
  · exact h.goodCharacter v
  · exact h.quiet (s.quiet_link _)

/-! ### Resets -/

/-- R201: at power-on no slot has a seat and no place is taken. -/
theorem State.Seated.powerOnReset (s : State) : s.powerOnReset.Seated pool [] := by
  have hslot (j : SlotId) : s.powerOnReset.slot j = (s.slot j).toPowerOn := s.slot_mapSlots j Slot.toPowerOn
  have hseat (j : SlotId) : s.powerOnReset.seat [] j = .none := by rw [State.seat_nil, hslot]; rfl
  exact
    { queueNodup := List.nodup_nil
      grantedNodup := List.nodup_nil
      queued := fun p hp => absurd hp List.not_mem_nil
      granted := fun p hp => absurd hp List.not_mem_nil
      partners := fun p hp => absurd hp List.not_mem_nil
      waits := fun j hj => absurd ((hseat j).symm.trans hj) (by decide)
      ramps := fun j hj => absurd ((hseat j).symm.trans hj) (by decide)
      total := fun _ => by simp [State.total_eq_sum, hslot, Slot.toPowerOn, Slot.powerOn]
      empty := fun _ j _ => by rw [hslot]; rfl }

theorem State.Seated.endOfPowerOnReset (h : s.Seated pool []) (r a : Bool) : (s.endOfPowerOnReset r a).Seated pool [] := by
  refine h.when fun _ => State.Seated.quiet (h.quiet (s.quiet_mapSlots (Slot.startUp a) ?_ ?_)) (.shared rfl rfl rfl)
  · exact fun _ => rfl
  · exact fun _ => le_rfl

theorem State.Seated.cresetAssert (h : s.Seated pool []) : s.cresetAssert.Seated pool [] := by
  unfold State.cresetAssert
  split
  · exact h
  · split
    · exact h.quiet (.shared rfl rfl rfl)
    · exact (h.quiet s.quiet_controlReset).quiet (.shared rfl rfl rfl)

/-! ### The step -/

/-- A well-formed command keeps the seats right. -/
theorem State.Seated.exec (h : s.Seated pool []) {c : Instr} (hwf : c.wf = true) :
    ∃ t, exec c s = .next t ∧ t.Seated pool [] := by
  have hrunning {f : State → State} (hf : (f s).Seated pool []) :
      ∃ t, (.next (s.running f) : Host.Outcome State Fault Refusal) = .next t ∧ t.Seated pool [] := by
    refine ⟨_, rfl, ?_⟩
    unfold State.running
    split
    · exact h
    · exact hf
  cases hreq : c.request with
  | some p =>
    rw [exec_of_request s hreq hwf]
    exact hrunning (h.submit p.1 p.2)
  | none =>
    cases c with
    | hostRequest i r =>
      rw [show Machine.exec (.hostRequest i r) s = .next (s.running fun s => s.hostRequest i r) from if_pos hwf]
      exact hrunning (h.hostRequest r)
    | cardRequest i r =>
      rw [show Machine.exec (.cardRequest i r) s = .next (s.running fun s => s.cardRequest i r) from if_pos hwf]
      exact hrunning (h.cardRequest r)
    | cardCompletion i d c =>
      rw [show Machine.exec (.cardCompletion i d c) s = .next (s.running fun s => s.cardCompletion i d c) from if_pos hwf]
      exact hrunning (h.cardCompletion d c)
    | hostCompletion i c =>
      rw [show Machine.exec (.hostCompletion i c) s = .next (s.running fun s => s.hostCompletion i c) from if_pos hwf]
      exact hrunning (h.hostCompletion c)
    | holdExpiry i => exact hrunning h.holdExpiry
    | entryExpiry i tag => exact hrunning (h.entryExpiry tag)
    | ghostDeadline i => exact hrunning h.ghostDeadline
    | linkDown i => exact hrunning h.linkDown
    | linkUp i => exact hrunning h.linkUp
    | linkGraceExpiry i => exact hrunning h.graceExpiry
    | upstreamReset i => exact hrunning h.upstreamReset
    | upstreamRelease i => exact hrunning h.upstreamRelease
    | decayEvent => exact hrunning h.decayEvent
    | calertAssertion i =>
      refine ⟨s.calertPin i, rfl, ?_⟩
      unfold State.calertPin
      split
      · exact h.quiet (s.quiet_modSlot i _ (fun _ => rfl) fun _ => le_rfl)
      · exact h.calertAssertion
    | calertRelease i => exact ⟨s.calertRelease i, rfl, h.quiet (s.quiet_modSlot i _ (fun _ => rfl) fun _ => le_rfl)⟩
    | drainExpiry i => exact hrunning h.drainExpiry
    | decisionExpiry i => exact hrunning h.decisionExpiry
    | minOffExpiry i => exact hrunning h.minOffExpiry
    | dischargeTimeout i => exact hrunning h.dischargeExpiry
    | rampExpiry i => exact hrunning h.rampExpiry
    | resetPulseExpiry i => exact hrunning h.pulseExpiry
    | trainingTimeout i => exact hrunning h.trainingExpiry
    | restoreTimeout i => exact hrunning h.restoreExpiry
    | resendTimerExpiry i => exact hrunning h.resendExpiry
    | replayWriteDeadline i => exact hrunning h.replayDeadline
    | prsntChange i b =>
      refine ⟨s.prsntPin i b, rfl, ?_⟩
      unfold State.prsntPin
      split
      · exact h.quiet (s.quiet_modSlot i _ (fun _ => rfl) fun _ => le_rfl)
      · exact h.when fun _ => h.quiet (s.quiet_modSlot i _ (fun _ => rfl) fun _ => le_rfl)
    | presenceDebounceExpiry i => exact hrunning h.debounceExpiry
    | conversionEnd q => exact hrunning (h.conversionEnd q)
    | pwrenChange i b =>
      refine ⟨s.pwrenPin i b, rfl, ?_⟩
      unfold State.pwrenPin
      split
      · exact h.quiet (s.quiet_modSlot i _ (fun _ => rfl) fun _ => le_rfl)
      · exact h.quiet (s.quiet_drive i _ (fun _ => rfl) fun _ => le_rfl)
    | attnBlinkToggle i =>
      exact hrunning (f := fun s => s.blinkToggle i)
        (h.when fun _ => h.quiet (s.quiet_modSlot i _ (fun _ => rfl) fun _ => le_rfl))
    | powerOnReset => exact ⟨s.powerOnReset, rfl, State.Seated.powerOnReset s⟩
    | endOfPowerOnReset r a => exact ⟨s.endOfPowerOnReset r a, rfl, h.endOfPowerOnReset r a⟩
    | controlReset => exact ⟨s.cresetAssert, rfl, h.cresetAssert⟩
    | cresetRelease => exact ⟨s.cresetRelease, rfl, h.quiet (.shared rfl rfl rfl)⟩
    | characterReceived v b => exact hrunning (h.characterReceived v b)
    | gapTimerExpiry => exact hrunning (f := State.gapExpiry) (h.when fun _ => h.quiet (s.quiet_link _))
    | replyStart => exact hrunning h.replyStart
    | replySent => exact hrunning h.replySent
    | _ => cases hreq

theorem State.Seated.exec_next (h : s.Seated pool []) {c : Instr} {t : State} (hexec : Machine.exec c s = .next t) :
    t.Seated pool [] := by
  cases hwf : c.wf with
  | false =>
    rw [exec_of_illFormed s hwf] at hexec
    cases hexec
  | true =>
    obtain ⟨u, hu, hseated⟩ := h.exec hwf
    rw [hexec] at hu
    cases hu
    exact hseated

theorem State.Seated.takeOwed_next (h : s.Seated pool []) {e : Owed} {t : State} (htake : s.takeOwed e = .next t) :
    t.Seated pool [] := by
  cases e with
  | event c => exact h.exec_next htake
  | conversion =>
    have hcounted : ({ s with freeCount := s.freeCount + 1 } : State).Seated pool [] := h.quiet (.shared rfl rfl rfl)
    exact hcounted.exec_next (c := .conversionEnd _) htake
  | hostArrival i =>
    cases htake
    exact h.takeHostWaiting
  | cardArrival i =>
    cases htake
    exact h.takeCardWaiting

theorem State.Seated.idle_next (h : s.Seated pool []) {t : State} (hidle : s.idle = .next t) : t.Seated pool [] := by
  unfold State.idle at hidle
  split at hidle
  · cases hidle
    exact h
  · split at hidle
    · cases hidle
      exact h.quiet (.shared rfl rfl rfl)
    · exact h.takeOwed_next hidle
    · have hcounted : ({ s with freeCount := s.freeCount + 1 } : State).Seated pool [] := h.quiet (.shared rfl rfl rfl)
      exact hcounted.takeOwed_next hidle

theorem State.Seated.step_next (h : s.Seated pool []) {t : State} (hstep : step s = .next t) : t.Seated pool [] := by
  cases hp : s.pending with
  | nil => exact h.idle_next ((step_of_empty hp).symm.trans hstep)
  | cons c rest =>
    rw [stepRunsFrontCommand c rest s hp] at hstep
    have hrest : ({ s with pending := rest } : State).Seated pool [] := h.quiet (.shared rfl rfl rfl)
    exact hrest.exec_next hstep

end

/-- Settles O6: the seats asked for without the pool are the arbiter's soundness, and every step keeps them. -/
theorem stepKeepsTheArbiterSound : Obligations.StepKeepsTheArbiterSound := by
  intro s t hs hstep
  rw [← State.seated_iff_arbiterSound] at hs ⊢
  exact hs.step_next hstep

/-- Settles O7: with the pool they are both. -/
theorem stepKeepsThePoolSound : Obligations.StepKeepsThePoolSound := by
  intro s t harbiter hpool hstep
  have hs : s.Seated True [] := s.seated_iff_poolSound.2 ⟨harbiter, hpool⟩
  exact (t.seated_iff_poolSound.1 (hs.step_next hstep)).2

/-- The part at the end of power-on reset is a part at power-on with the timebase started. -/
theorem reset_seated (pool : Prop) : State.reset.Seated pool [] := by
  have hseat (j : SlotId) : State.reset.slot j = Slot.powerOn false false false := by simp [State.slot, State.reset]
  exact
    { queueNodup := List.nodup_nil
      grantedNodup := List.nodup_nil
      queued := fun p hp => absurd hp List.not_mem_nil
      granted := fun p hp => absurd hp List.not_mem_nil
      partners := fun p hp => absurd hp List.not_mem_nil
      waits := fun j hj => absurd hj (by rw [State.seat_nil, hseat]; decide)
      ramps := fun j hj => absurd hj (by rw [State.seat_nil, hseat]; decide)
      total := fun _ => by simp [State.total_eq_sum, hseat, Slot.powerOn]
      empty := fun _ j _ => by rw [hseat]; rfl }

/-- Settles O8: each block at its power-on values is sound, and no slot has a seat. -/
theorem resetIsSound : Obligations.ResetIsSound := by
  have hslot (j : SlotId) : State.reset.slot j = Slot.powerOn false false false := by simp [State.slot, State.reset]
  have hblock : (Slot.powerOn false false false).sound ∧ (Slot.powerOn false false false).store.sound ∧
      (Slot.powerOn false false false).ranged :=
    ⟨⟨rfl, Nat.zero_le _, Nat.zero_le _, Nat.zero_le _⟩, ImageStore.sound_of_empty rfl,
      Policy.sound_default false, Nat.zero_le _, ⟨List.nodup_nil, Nat.zero_le _⟩, List.nodup_nil, Nat.zero_le _⟩
  refine ⟨⟨⟨Nat.zero_le _, Nat.zero_le _⟩, Scorer.sound_powerOn, fun j => hslot j ▸ hblock⟩, ?_⟩
  exact State.reset.seated_iff_poolSound.1 (reset_seated True)

end Sys2Proof.Machine
end

section
/-! What is owed at an instant, and the resets (R199, R201, R202). -/

namespace Sys2Proof.Machine

/-! ### What is owed -/

theorem Owed.mem_if {c : Bool} {e x : Owed} : x ∈ Owed.if c e ↔ c = true ∧ x = e := by
  cases c <;> simp [Owed.if]

theorem State.due_iff {s : State} {t : Timer} : s.due t = true ↔ t = some s.now := beq_iff_eq

theorem mem_slotIds : ∀ i : SlotId, i ∈ Config.slotIds := by decide

theorem State.mem_owed_of_slotOwed {s : State} {i : SlotId} {e : Owed} (h : e ∈ s.slotOwed i) : e ∈ s.owed := by
  exact List.mem_append_left _ (List.mem_flatMap.2 ⟨i, mem_slotIds i, h⟩)

theorem State.mem_owed_of_sharedOwed {s : State} {e : Owed} (h : e ∈ s.sharedOwed) : e ∈ s.owed :=
  List.mem_append_right _ h

/-- R201: with no start-up timer of a lower slot due, it is the slot's turn (log 24). -/
theorem State.startUpTurn_of_first {s : State} {i : SlotId}
    (h : ∀ j < i, (s.slot j).pins.startUp = true → (s.slot j).pins.debounce ≠ some s.now) : s.startUpTurn i = true := by
  simp only [State.startUpTurn, Bool.or_eq_true, List.all_eq_true]
  refine Or.inr fun j _ => ?_
  by_cases hij : i ≤ j
  · simp [hij]
  · by_cases hstart : (s.slot j).pins.startUp = true
    · simp [State.due, h j (not_le.1 hij) hstart]
    · simp [hstart]

/-- Settles O3: each timer has its place in the list of what is owed. -/
theorem everyDueExpiryIsOwed : Obligations.EveryDueExpiryIsOwed := by
  intro s i
  have hslot {e : Owed} (h : e ∈ s.slotOwed i) : e ∈ s.owed := State.mem_owed_of_slotOwed h
  have hshared {e : Owed} (h : e ∈ s.sharedOwed) : e ∈ s.owed := State.mem_owed_of_sharedOwed h
  simp only [State.slotOwed, State.sharedOwed, List.mem_append, Owed.mem_if, State.due_iff, Bool.and_eq_true] at hslot hshared
  refine ⟨?hold, ?entry, ?ghost, ?grace, ?drain, ?decision, ?minOff, ?discharge, ?ramp, ?pulse, ?training, ?restore, ?resend,
    ?write, ?debounce, ?startUp, ?blink, ?decay, ?conversion, ?gap, ?reply, ?host, ?card⟩
  case hold => exact fun h hhold hdue => hslot (by simp [hhold, State.due, hdue])
  case entry => exact fun e he hdue => hslot (by simpa [State.due] using ⟨e, ⟨he, hdue⟩, rfl⟩)
  case ghost => exact fun h => hslot (by simp [h])
  case grace => exact fun h => hslot (by simp [h])
  case drain => exact fun h => hslot (by simp [h])
  case decision => exact fun h => hslot (by simp [h, DecisionTimer.deadline])
  case minOff => exact fun h => hslot (by simp [h])
  case discharge => exact fun h => hslot (by simp [h])
  case ramp => exact fun h => hslot (by simp [h])
  case pulse => exact fun h => hslot (by simp [h, PulseTimer.deadline])
  case training => exact fun h => hslot (by simp [h])
  case restore => exact fun h => hslot (by simp [h])
  case resend => exact fun h => hslot (by simp [h])
  case write => exact fun o ho hdue => hslot (by simp [ImageStore.writeDeadline, ho, hdue])
  case debounce => exact fun h hstart => hslot (by simp [h, State.startUpTurn, hstart])
  case startUp => exact fun h _ hfirst => hslot (by simp [h, State.startUpTurn_of_first hfirst])
  case blink => exact fun h => hslot (by simp [h])
  case decay => exact fun h => hshared (by simp [h])
  case conversion => exact fun h => hshared (by simp [h])
  case gap => exact fun h => hshared (by simp [h])
  case reply =>
    intro p hp
    exact ⟨fun hstarted hdue => hshared (by simp [hp, hstarted, State.lineNow, Config.lineUnits, hdue]),
      fun hstarted hdue => hshared (by simp [hp, hstarted, State.lineNow, Config.lineUnits, hdue])⟩
  case host => exact fun hreset hhold hwait => hslot (by simp [Slot.hostMayArrive, hreset, hhold, hwait])
  case card => exact fun hup hhold hwait => hslot (by simp [Slot.cardMayArrive, hup, hhold, hwait])

/-! ### Resets -/

theorem State.slot_powerOnReset (s : State) (i : SlotId) : s.powerOnReset.slot i = (s.slot i).toPowerOn :=
  s.slot_mapSlots i Slot.toPowerOn

/-- Log 21: while POR# is held only the resets, their ends and the input pins act. -/
theorem exec_of_porHeld {c : Instr} {s : State} (hpor : s.porHeld = true) (hwf : c.wf = true)
    (hreset : c ≠ .powerOnReset) (hend : ∀ r a, c ≠ .endOfPowerOnReset r a) (hcontrol : c ≠ .controlReset)
    (hrelease : c ≠ .cresetRelease) (hprsnt : ∀ i b, c ≠ .prsntChange i b) (hcalert : ∀ i, c ≠ .calertAssertion i)
    (hcalertRelease : ∀ i, c ≠ .calertRelease i) (hpwren : ∀ i b, c ≠ .pwrenChange i b) : exec c s = .next s := by
  cases hreq : c.request with
  | some p => rw [exec_of_request s hreq hwf, next_running_held _ hpor]
  | none =>
    cases c with
    | hostRequest i r => exact (if_pos hwf).trans (next_running_held _ hpor)
    | cardRequest i r => exact (if_pos hwf).trans (next_running_held _ hpor)
    | cardCompletion i d c => exact (if_pos hwf).trans (next_running_held _ hpor)
    | hostCompletion i c => exact (if_pos hwf).trans (next_running_held _ hpor)
    | powerOnReset => exact absurd rfl hreset
    | endOfPowerOnReset r a => exact absurd rfl (hend r a)
    | controlReset => exact absurd rfl hcontrol
    | cresetRelease => exact absurd rfl hrelease
    | prsntChange i b => exact absurd rfl (hprsnt i b)
    | calertAssertion i => exact absurd rfl (hcalert i)
    | calertRelease i => exact absurd rfl (hcalertRelease i)
    | pwrenChange i b => exact absurd rfl (hpwren i b)
    | id | slotGet | slotSet | fence | recover | quar | pwrOn | pwrOff | winSet | denySet | budgetSet | scoreSet | imgRead
    | imgPut | imgDrop | filterSet | pinMode | pinLoad | pinSample | railRead | reportTake | partReset => cases hreq
    | _ => exact next_running_held _ hpor

/-- Settles O9: the values of the reset slot by slot and block by block, and what acts while it is held. -/
theorem powerOnResetClearsThePart : Obligations.PowerOnResetClearsThePart := by
  refine ⟨fun s => ⟨s.powerOnReset, rfl, fun i => ?_, ?_⟩, fun c s hpor hwf => exec_of_porHeld hpor hwf, fun s hpor => ?_⟩
  · rw [s.slot_powerOnReset i]
    exact ⟨rfl, rfl, rfl, rfl, rfl, rfl, rfl, rfl, rfl, rfl, rfl, rfl, rfl, rfl, rfl, rfl, rfl, rfl, rfl, rfl⟩
  · exact ⟨rfl, rfl, rfl, rfl, rfl, rfl, rfl, rfl, rfl, rfl, rfl, rfl, rfl, rfl, rfl, rfl, rfl, rfl, rfl, rfl, rfl, rfl⟩
  · show (.next s.cresetAssert : Host.Outcome State Fault Refusal) = _
    by_cases hheld : s.cresetHeld = true
    · rw [State.cresetAssert, if_pos hheld, ← hheld]
    · rw [State.cresetAssert, if_neg hheld, if_pos hpor]

/-- Settles O10: what the end of a power-on reset writes, and that it writes nothing with POR# released. -/
theorem endOfPowerOnResetStartsThePart : Obligations.EndOfPowerOnResetStartsThePart := by
  intro s rate autoon
  have hexec : exec (.endOfPowerOnReset rate autoon) s = .next (s.endOfPowerOnReset rate autoon) := rfl
  constructor <;> intro hpor
  · rw [hexec, State.endOfPowerOnReset, State.when, if_pos hpor]
    rfl
  · rw [hexec, State.endOfPowerOnReset, State.when, if_neg (by simp [hpor])]

/-- R202: the control reset in closed form; a reply that is being sent is cut off (R179). -/
theorem State.controlReset_eq (s : State) : s.controlReset = s.clearsControl s.link.cutOff := rfl

theorem Link.cutOff_eq (l : Link) :
    l.cutOff = l.sent ++ (match l.inProcess with
      | some p => if p.started = true then [{ bytes := frameOf p.reply, whole := false }] else []
      | none => []) := by
  unfold Link.cutOff
  cases l.inProcess with
  | none => exact (List.append_nil _).symm
  | some p =>
    dsimp only
    split
    · rfl
    · exact (List.append_nil _).symm

/-- Settles O11: an assertion clears the three blocks unless it is held already, and the release ends the hold. -/
theorem controlResetClearsThreeBlocks : Obligations.ControlResetClearsThreeBlocks := by
  refine ⟨fun s hpor hheld => ?_, fun s hheld => ?_, fun s => rfl⟩
  · refine ⟨?_, rfl⟩
    show (.next s.cresetAssert : Host.Outcome State Fault Refusal) = _
    rw [State.cresetAssert, if_neg (by simp [hheld]), if_neg (by simp [hpor]), State.controlReset_eq, Link.cutOff_eq]
      <;> rfl
  · show (.next s.cresetAssert : Host.Outcome State Fault Refusal) = _
    rw [State.cresetAssert, if_pos hheld]

end Sys2Proof.Machine
end

section
/-! Host requests: when HOST_REQUEST reaches its arrival, and what the arrival does at an open gate, at a closed one, and in RESTORING (R5,
R6, R8, R9, R23, R67). -/

namespace Sys2Proof.Machine

/-! ### HOST_REQUEST and its arrival -/

/-- A well-formed HOST_REQUEST acts on the part once POR# is released. -/
theorem exec_hostRequest {s : State} {r : Request} (i : SlotId) (hwf : r.wf = true) (hpor : s.porHeld = false) :
    exec (.hostRequest i r) s = .next (s.hostRequest i r) := (if_pos hwf).trans (next_running _ hpor)

/-- R8, R17: with the upstream value RUNNING and nothing ahead of it, the request arrives at once. -/
theorem State.hostRequest_of_hostClear {s : State} {i : SlotId} (r : Request) (hclear : (s.slot i).hostClear) :
    s.hostRequest i r = s.hostArrive i r := by
  obtain ⟨hrunning, hhold, hwaiting⟩ := hclear
  simp [State.hostRequest, hrunning, hhold, hwaiting]

theorem exec_hostRequest_of_hostClear {s : State} {i : SlotId} {r : Request} (hwf : r.wf = true) (hpor : s.porHeld = false)
    (hclear : (s.slot i).hostClear) : exec (.hostRequest i r) s = .next (s.hostArrive i r) := by
  rw [exec_hostRequest i hwf hpor, State.hostRequest_of_hostClear r hclear]

/-- R6: in service with the card link UP. -/
theorem State.hostArrive_of_up {s : State} {i : SlotId} (r : Request) (hserves : (s.slot i).serving)
    (hup : (s.slot i).chan.linkUp = true) : s.hostArrive i r = s.takeOpen i r := by
  simp [State.hostArrive, Slot.inService_of_serving hserves, hup]

/-- R9: in service with the card link DOWN, and in RESTORING, the request is held. -/
theorem State.hostArrive_of_waits {s : State} {i : SlotId} (r : Request)
    (hwaits : (s.slot i).serving ∧ (s.slot i).chan.linkUp = false ∨ (s.slot i).ctl.state = .restoring) :
    s.hostArrive i r = s.holdRequest i r := by
  obtain ⟨hserves, hdown⟩ | hrestoring := hwaits
  · simp [State.hostArrive, Slot.inService_of_serving hserves, hdown]
  · have hclosed : ¬ (s.slot i).serving := by rw [Slot.serving, hrestoring]; decide
    simp [State.hostArrive, Slot.inService_of_not_serving hclosed, hrestoring]

/-- R67: at any other closed gate it is absorbed. -/
theorem State.hostArrive_of_closed {s : State} {i : SlotId} (r : Request) (hclosed : ¬ (s.slot i).serving)
    (hrestoring : (s.slot i).ctl.state ≠ .restoring) : s.hostArrive i r = s.absorbs i r := by
  simp [State.hostArrive, Slot.inService_of_not_serving hclosed, hrestoring, State.absorb_eq]

theorem State.holdRequest_eq (s : State) (i : SlotId) (r : Request) :
    s.holdRequest i r = s.setSlot i
      { s.slot i with
        chan.hold := some
          { req := r, arrival := s.now, deadline := s.now + BitVec.ofNat 32 (s.slot i).policy.slotTimeout } } := rfl

theorem State.refuseTag_eq (s : State) (i : SlotId) (tag : Tag) :
    s.refuseTag i tag =
      (s.setSlot i ((s.slot i).tellsHost (.completion (Completion.bare tag .abort)))).reporting
        (s.note .protocol i (some .tagCollision) (some tag.toNat)) := by
  rw [State.refuseTag, State.report_eq]
  rfl

theorem State.joinPoolWait_eq (s : State) (i : SlotId) :
    s.joinPoolWait i = { s with poolWait := if i ∈ s.poolWait then s.poolWait else s.poolWait ++ [i] } := by
  unfold State.joinPoolWait
  split <;> rfl

/-! ### Admission (R23) -/

theorem State.takeOpen_of_posted {s : State} {i : SlotId} {r : Request} (hposted : r.posted = true) :
    s.takeOpen i r = s.setSlot i ((s.slot i).tellsCard (.request .host r)) := by
  rw [State.takeOpen, if_pos hposted]
  rfl

theorem State.takeOpen_of_collision {s : State} {i : SlotId} {r : Request} (hposted : r.posted = false)
    (hpending : ∃ e ∈ (s.slot i).entries, e.tag = r.tag) : s.takeOpen i r = s.refuseTag i r.tag := by
  simp [State.takeOpen, hposted, State.admission_eq, if_pos hpending]

theorem not_pending_of_new {l : List Entry} {tag : Tag} (hnew : ∀ e ∈ l, e.tag ≠ tag) : ¬ ∃ e ∈ l, e.tag = tag :=
  fun ⟨e, he, htag⟩ => hnew e he htag

theorem State.takeOpen_of_quota {s : State} {i : SlotId} {r : Request} (hposted : r.posted = false)
    (hnew : ∀ e ∈ (s.slot i).entries, e.tag ≠ r.tag) (hquota : (s.slot i).policy.quota ≤ (s.slot i).entries.length) :
    s.takeOpen i r = s.holdRequest i r := by
  simp [State.takeOpen, hposted, State.admission_eq, if_neg (not_pending_of_new hnew), hquota]

theorem State.takeOpen_of_pool {s : State} {i : SlotId} {r : Request} (hposted : r.posted = false)
    (hnew : ∀ e ∈ (s.slot i).entries, e.tag ≠ r.tag) (hquota : (s.slot i).entries.length < (s.slot i).policy.quota)
    (hfull : s.poolFree = 0) : s.takeOpen i r = (s.holdRequest i r).joinPoolWait i := by
  simp [State.takeOpen, hposted, State.admission_eq, if_neg (not_pending_of_new hnew), Nat.not_le.2 hquota, hfull]

theorem State.takeOpen_of_admitted {s : State} {i : SlotId} {r : Request} (hposted : r.posted = false)
    (hnew : ∀ e ∈ (s.slot i).entries, e.tag ≠ r.tag) (hquota : (s.slot i).entries.length < (s.slot i).policy.quota)
    (hfree : 0 < s.poolFree) :
    s.takeOpen i r = s.admitRequest i r s.now (s.after (s.slot i).policy.slotTimeout) := by
  simp [State.takeOpen, hposted, State.admission_eq, if_neg (not_pending_of_new hnew), Nat.not_le.2 hquota, hfree.ne']

theorem State.admitRequest_eq (s : State) (i : SlotId) (r : Request) (arrival deadline : Micros) :
    s.admitRequest i r arrival deadline =
      s.setSlot i
        { (s.slot i).tellsCard (.request .host r) with entries := (s.slot i).entries ++ [r.entry arrival deadline] } := by
  simp only [State.admitRequest, State.toCard, State.modSlot_modSlot]
  rfl

/-- Settles O12: a posted request passes, and one that admission takes gets its entry. -/
theorem hostRequestPassesAnOpenGate : Obligations.HostRequestPassesAnOpenGate := by
  intro s i r hwf hpor hclear hserves hup told
  rw [exec_hostRequest_of_hostClear hwf hpor hclear, State.hostArrive_of_up r hserves hup]
  constructor
  · intro hposted
    rw [State.takeOpen_of_posted hposted]
  · intro hposted hnew hquota hfree
    rw [State.takeOpen_of_admitted hposted hnew hquota hfree, State.admitRequest_eq]
    rfl

/-- R70, R24: absorption of a tag that is pending in FENCING. -/
theorem State.absorbs_of_pending {s : State} {i : SlotId} {r : Request} (hfencing : (s.slot i).ctl.state = .fencing)
    (hposted : r.posted = false) (hpending : ∃ e ∈ (s.slot i).entries, e.tag = r.tag) :
    s.absorbs i r =
      (s.setSlot i ((s.slot i).tellsHost (.completion (Completion.bare r.tag .abort)))).reporting
        (s.note .protocol i (some .tagCollision) (some r.tag.toNat)) := if_pos ⟨hfencing, hposted, hpending⟩

/-- Settles O13: admission and absorption refuse a pending tag in the same way. -/
theorem pendingTagIsRefused : Obligations.PendingTagIsRefused := by
  intro s i r hwf hposted hpor hclear hstate hpending
  rw [exec_hostRequest_of_hostClear hwf hpor hclear]
  obtain ⟨hserves, hup⟩ | hfencing := hstate
  · rw [State.hostArrive_of_up r hserves hup, State.takeOpen_of_collision hposted hpending, State.refuseTag_eq]
  · have hclosed : ¬ (s.slot i).serving := Slot.not_serving_of_fencing hfencing
    rw [State.hostArrive_of_closed r hclosed (by rw [hfencing]; decide), State.absorbs_of_pending hfencing hposted hpending]

/-- Settles O14: what keeps a request in the link, and what puts it into the hold. -/
theorem hostRequestIsHeld : Obligations.HostRequestIsHeld := by
  refine ⟨fun s i r hwf hpor => ?_, ?_⟩
  · rw [exec_hostRequest i hwf hpor]
    constructor
    · intro hreset
      simp [State.hostRequest, hreset]
    · intro hrunning hahead
      have hwaits : ((s.slot i).chan.hold.isSome || !(s.slot i).chan.hostWaiting.isEmpty) = true := by
        rw [Bool.or_eq_true, Option.isSome_iff_ne_none, Bool.not_eq_true', List.isEmpty_eq_false_iff]
        exact hahead
      simp [State.hostRequest, hrunning, hwaits, State.modSlot]
  · intro s i r hwf hpor hclear held
    have hheld : s.holdRequest i r = held := s.holdRequest_eq i r
    rw [exec_hostRequest_of_hostClear hwf hpor hclear]
    constructor
    · intro hwaits
      rw [State.hostArrive_of_waits r hwaits, hheld]
    · intro hserves hup hposted hnew
      rw [State.hostArrive_of_up r hserves hup]
      constructor
      · intro hquota
        rw [State.takeOpen_of_quota hposted hnew hquota, hheld]
      · intro hquota hfull
        rw [State.takeOpen_of_pool hposted hnew hquota hfull, hheld, State.joinPoolWait_eq]
        rfl

/-- Settles O15: with no tag collision, absorption goes by the kind. -/
theorem hostRequestIsAbsorbed : Obligations.HostRequestIsAbsorbed := by
  intro s i r hwf hpor hclear hclosed hrestoring hnew sl answered
  have hexec : exec (.hostRequest i r) s = .next (s.absorbs i r) := by
    rw [exec_hostRequest_of_hostClear hwf hpor hclear, State.hostArrive_of_closed r hclosed hrestoring]
  have hnone : ¬ ((s.slot i).ctl.state = .fencing ∧ r.posted = false ∧ ∃ e ∈ (s.slot i).entries, e.tag = r.tag) :=
    fun ⟨hfencing, hposted, hpending⟩ => not_pending_of_new (hnew hfencing hposted) hpending
  rw [hexec, State.absorbs, if_neg hnone]
  obtain ⟨tag, kind⟩ := r
  refine ⟨fun hposted => ?_, ?_, ?_, ?_, ?_, ?_⟩
  · cases kind with
    | memWrite a d => rfl
    | message => rfl
    | memRead | ioRead | ioWrite | cfgRead | cfgWrite => cases hposted
  all_goals
    intros
    next hkind =>
      cases hkind
      rfl

/-! ### The image as a function -/

/-- Settles O18: the three cases of a configuration write that make no new entry, and the three of a read. -/
theorem imageTakesAndServesConfiguration : Obligations.ImageTakesAndServesConfiguration := by
  refine ⟨fun st f o v m => ⟨fun hzero => ?_, fun hfilter => ?_, fun hzero hclear hheld => ?_⟩,
    fun sl o => ⟨fun hzero => ?_, fun hzero hnew => ?_, fun hzero hsound e he ho b => ?_⟩⟩
  · rw [ImageStore.record, if_pos hzero]
  · have hin : inFilter f o = true := by simpa [inFilter] using hfilter
    rw [ImageStore.record, if_pos hin, ite_self]
  · have hout : ¬ inFilter f o = true := by
      simp only [inFilter, List.any_eq_true, Bool.and_eq_true, decide_eq_true_eq, not_exists, not_and]
      intro r hr hbase
      have := hclear r hr
      omega
    have hholds : st.holds o = true := by simpa [ImageStore.holds] using hheld
    rw [ImageStore.record, if_neg hzero, if_neg hout, if_pos hholds]
  · rw [Slot.configRead, if_pos hzero]
  · have hnone : (sl.store.entries.find? fun e => e.offset == o) = none := by simpa using hnew
    rw [Slot.configRead, if_neg hzero, hnone]
  · have hfind : (sl.store.entries.find? fun e => e.offset == o) = some e := by
      obtain ⟨before, after, hsplit⟩ := List.append_of_mem he
      have hnodup := hsound.2.1
      rw [hsplit, List.map_append, List.nodup_append] at hnodup
      obtain ⟨-, -, hdistinct⟩ := hnodup
      rw [hsplit, List.find?_append, List.find?_eq_none.2, Option.none_or, List.find?_cons_of_pos]
      · simp [ho]
      · intro x hx hxo
        refine hdistinct x.offset (List.mem_map_of_mem hx) e.offset (by simp) ?_
        rw [ho]
        exact beq_iff_eq.1 hxo
    rw [Slot.configRead, if_neg hzero, hfind]
    show (e.value ||| ~~~(maskBits e.mask)).extractLsb' (8 * b.val) 8 = _
    rw [BitVec.extractLsb'_or, extractByte_not, extractByte_maskBits]
    split
    · exact BitVec.or_zero
    · exact BitVec.or_allOnes

/-! ### The rail code -/

/-- R164: the rounded quotient lies at `c` just when the clauses of the statement say so; then the clamp. -/
theorem railCode_eq (q : Quantity) (step : Nat) :
    railCode q step =
      (min (max ((2 * q.num + step * (q.den + 1)) / (2 * (step * (q.den + 1) : Int))) 0) 4095).toNat := by
  rw [railCode, mul_assoc]

/-- Settles O20: the steps, and the quotient by its bounds. -/
theorem railCodeRounds : Obligations.RailCodeRounds := by
  refine ⟨rfl, rfl, rfl, ?_⟩
  intro q step hstep S
  have hS : 0 < S := by positivity
  have hcode : railCode q step = (min (max ((2 * q.num + S) / (2 * S)) 0) 4095).toNat := railCode_eq q step
  rw [hcode]
  refine ⟨fun hlow => ?_, fun hhigh => ?_, fun c hc hfrom hto => ?_⟩
  · have : (2 * q.num + S) / (2 * S) < 0 := Int.ediv_neg_of_neg_of_pos hlow (by omega)
    omega
  · have : 4096 ≤ (2 * q.num + S) / (2 * S) := (Int.le_ediv_iff_mul_le (by omega)).2 (by linarith)
    omega
  · have : (2 * q.num + S) / (2 * S) = c := by
      rw [Int.ediv_eq_iff_of_pos (by omega)]
      constructor <;> nlinarith
    omega

end Sys2Proof.Machine
end

section
/-! Which operations open no gate, and which leave the slot's own gate closed (R5): what follows an exit from FENCING, or a fence, finds the
slot out of service. -/

namespace Sys2Proof.Machine

/-- No slot out of service in `s` is in service in `t`. -/
def State.OpensNone (s t : State) : Prop := ∀ j, ¬ (s.slot j).serving → ¬ (t.slot j).serving

/-- Neither is slot `i`, whatever it was. -/
def State.Shuts (i : SlotId) (s t : State) : Prop := ∀ j, j = i ∨ ¬ (s.slot j).serving → ¬ (t.slot j).serving

section
variable {s t u : State} {i : SlotId}

theorem State.OpensNone.refl (s : State) : s.OpensNone s := fun _ h => h

theorem State.OpensNone.trans (h : s.OpensNone t) (k : t.OpensNone u) : s.OpensNone u := fun j hj => k j (h j hj)

theorem State.Shuts.opensNone (h : State.Shuts i s t) : s.OpensNone t := fun j hj => h j (.inr hj)

theorem State.Shuts.self (h : State.Shuts i s t) : ¬ (t.slot i).serving := h i (.inl rfl)

theorem State.Shuts.trans (h : State.Shuts i s t) (k : t.OpensNone u) : State.Shuts i s u := fun j hj => k j (h j hj)

theorem State.OpensNone.shuts (h : s.OpensNone t) (k : State.Shuts i t u) : State.Shuts i s u :=
  fun j hj => k j (hj.imp_right (h j))

theorem State.OpensNone.of_state (h : ∀ j, (t.slot j).ctl.state = (s.slot j).ctl.state) : s.OpensNone t := fun j hj => by
  rwa [Slot.serving, h j]

theorem State.Quiet.opensNone (h : s.Quiet t) : s.OpensNone t := .of_state h.state

theorem State.shuts_drive (s : State) (i : SlotId) (f : Slot → Slot) (st : SlotState) (hf : ∀ a, (f a).ctl.state = st)
    (hst : st.isOpen = false) : State.Shuts i s (s.drive i f) := by
  intro j hj
  rw [State.drive_eq_moved]
  by_cases hji : j = i
  · rw [hji, Slot.serving, State.moved_state, hf]
    exact st.isOpen_false_iff.1 hst
  · rw [State.moved_slot_of_ne s _ hji]
    exact hj.resolve_left hji

theorem State.shuts_enterQuarantined (s : State) (i : SlotId) (r : Reason) : State.Shuts i s (s.enterQuarantined i r) := by
  unfold State.enterQuarantined
  dsimp only
  refine State.Shuts.trans ?_ ((State.quiet_setPowerOff _ i).trans
    ((State.quiet_reportState _ i _ _).trans (State.quiet_absorbHeld _ i))).opensNone
  exact s.shuts_drive i (fun sl => { sl.moveTo .quarantined with
    ctl.reason := some r, ctl.powerCut := false, ctl.resetKind := none, ctl.origin := none }) .quarantined (fun _ => rfl) rfl

theorem State.shuts_budgetFailure (s : State) (i : SlotId) : State.Shuts i s (s.budgetFailure i) :=
  (s.quiet_report .attempt i (some .budget) _).opensNone.shuts (State.shuts_enterQuarantined _ i .budget)

theorem State.shuts_enterRamping (s : State) (i : SlotId) : State.Shuts i s (s.enterRamping i) :=
  s.shuts_drive i _ .ramping (fun _ => rfl) rfl

theorem State.opensNone_grantLoop (l : List Place) : ∀ s : State, s.OpensNone (State.grantLoop l s) := by
  induction l with
  | nil => exact fun s => .refl s
  | cons p rest ih =>
    intro s
    unfold State.grantLoop
    split
    · exact .trans (by exact (State.shuts_budgetFailure { s with arbiter.queue := rest } p.slot).opensNone) (ih _)
    · split
      · exact .trans (by exact (State.shuts_enterRamping { s with
          arbiter.queue := rest, arbiter.granted := s.arbiter.granted ++ [p] } p.slot).opensNone) (ih _)
      · exact .refl s

theorem State.opensNone_grantCheck (s : State) : s.OpensNone s.grantCheck := State.opensNone_grantLoop _ s

theorem State.shuts_enterPowerWait (s : State) (i : SlotId) : State.Shuts i s (s.enterPowerWait i) := by
  have hdrive : State.Shuts i s (s.drive i fun sl => sl.moveTo .powerWait) :=
    s.shuts_drive i _ .powerWait (fun _ => rfl) rfl
  unfold State.enterPowerWait
  dsimp only
  generalize s.drive i (fun sl => sl.moveTo .powerWait) = t at hdrive ⊢
  split
  · exact hdrive.opensNone.shuts (t.shuts_budgetFailure i)
  · exact hdrive.trans (State.opensNone_grantCheck { t with arbiter.queue := t.arbiter.queue ++ [_] })

theorem State.shuts_enterOff (s : State) (i : SlotId) : State.Shuts i s (s.enterOff i) :=
  .trans (by exact s.shuts_drive i _ .off (fun _ => rfl) rfl) (State.quiet_reportState _ i _ _).opensNone

theorem State.shuts_enterEmpty (s : State) (i : SlotId) : State.Shuts i s (s.enterEmpty i) :=
  .trans (by exact s.shuts_drive i _ .empty (fun _ => rfl) rfl) (State.quiet_reportState _ i _ _).opensNone

theorem State.opensNone_dischargeCheck (s : State) (i : SlotId) : s.OpensNone (s.dischargeCheck i) := by
  unfold State.dischargeCheck
  dsimp only
  split
  · split
    · exact (s.shuts_enterPowerWait i).opensNone
    · split
      · exact (s.shuts_enterOff i).opensNone
      · exact (s.shuts_enterEmpty i).opensNone
  · exact .refl s

theorem State.shuts_enterDischarging (s : State) (i : SlotId) (t : Target) : State.Shuts i s (s.enterDischarging i t) :=
  .trans (by exact s.shuts_drive i _ .discharging (fun _ => rfl) rfl)
    ((State.quiet_absorbHeld _ i).opensNone.trans (State.opensNone_dischargeCheck _ i))

theorem State.shuts_startAttempt (s : State) (i : SlotId) (k : ResetKind) (o : Origin) (n : Nat) :
    State.Shuts i s (s.startAttempt i k o n) := by
  have hnoted := (s.quiet_modSlot i
    (fun sl => { sl with ctl.attempts := n + 1, ctl.resetKind := some k, ctl.origin := some o }) (fun _ => rfl)
    fun _ => le_rfl).opensNone
  unfold State.startAttempt
  dsimp only
  generalize State.modSlot s i _ = t at hnoted ⊢
  split
  · exact hnoted.shuts (t.shuts_drive i _ .resetting (fun _ => rfl) rfl)
  · split
    · exact hnoted.shuts (t.shuts_enterPowerWait i)
    · exact hnoted.shuts (t.shuts_enterDischarging i .bringUp)

theorem State.shuts_enterIsolated (s : State) (i : SlotId) : State.Shuts i s (s.enterIsolated i) := by
  have hdrive : State.Shuts i s (s.drive i fun sl => { sl.moveTo .isolated with ctl.isoPolicy := some sl.policy.policy }) :=
    s.shuts_drive i _ .isolated (fun _ => rfl) rfl
  unfold State.enterIsolated
  dsimp only
  generalize s.drive i _ = t at hdrive ⊢
  have hreported := hdrive.trans (t.quiet_reportState i (t.slot i).ctl.reason none).opensNone
  generalize t.reportState i (t.slot i).ctl.reason none = u at hreported ⊢
  split
  · exact hreported.opensNone.shuts (u.shuts_startAttempt i _ _ _)
  · refine hreported.trans (State.Quiet.opensNone ?_)
    exact u.quiet_modSlot i _ (fun _ => rfl) fun _ => le_rfl
  · exact hreported

theorem State.shuts_leavesFencing (s : State) (i : SlotId) : State.Shuts i s (s.leavesFencing i) := by
  rw [← State.leaveFencing_eq, State.leaveFencing]
  split
  · exact s.shuts_enterDischarging i .off
  · exact s.shuts_enterIsolated i

/-- R62, R63: a fence, to whatever end, leaves the slot out of service. -/
theorem State.shuts_fences (s : State) (i : SlotId) (r : Reason) (d : Disposition) : ¬ ((s.fences i r d).slot i).serving := by
  unfold State.fences
  dsimp only
  split
  · exact (State.shuts_leavesFencing _ i).self
  · exact Slot.not_serving_of_fencing (s.goesFencing_spares i r d).2

end

end Sys2Proof.Machine
end

section
/-! Expiries and card completions against the pending list: how an entry is found, answered and freed, and what its end leaves (R10, R27 to
R35). -/

namespace Sys2Proof.Machine

/-! ### Weights -/

/-- R46, R52: out of service, and with a weight of 0, nothing reaches the scorer. -/
theorem State.weighs_of_not_serving {s : State} {i : SlotId} (h : ¬ (s.slot i).serving) (w : Nat) (why : Reason) :
    s.weighs i w why = s := if_neg fun hs => h hs.1

theorem State.weighs_zero (s : State) (i : SlotId) (why : Reason) : s.weighs i 0 why = s := if_neg fun h => h.2 rfl

/-! ### The end of a held request (R10) -/

theorem State.emptyHold_eq (s : State) (i : SlotId) :
    s.emptyHold i =
      ({ s with poolWait := s.poolWait.filter fun j => j ≠ i } : State).setSlot i { s.slot i with chan.hold := none } := rfl

/-- R10: at its deadline the held request is dropped or answered by fill mode, and the timeout weight follows. -/
theorem State.holdExpiry_eq {s : State} {i : SlotId} {h : Held} (hhold : (s.slot i).chan.hold = some h)
    (hdue : h.deadline = s.now) :
    s.holdExpiry i =
      (({ s with poolWait := s.poolWait.filter fun j => j ≠ i } : State).setSlot i
        (if h.req.posted = true then ({ s.slot i with chan.hold := none } : Slot).droppedOne
        else (({ s.slot i with chan.hold := none } : Slot).tellsHost (.completion
          (fillCompletion (s.slot i).policy.fill h.req.tag h.req.kind.fillDwords))).absorbedOne)).weighs i
        s.scorer.timeout .timeout := by
  have hdue : s.due (some h.deadline) = true := State.due_iff.2 (congrArg some hdue)
  simp only [State.holdExpiry, hhold, State.when, if_pos hdue, State.cardFault_eq, State.emptyHold_eq,
    State.slot_setSlot_self, FillMode.answer_eq]
  split
  · rw [State.countDropped, State.modSlot, State.slot_setSlot_self, State.setSlot_setSlot]
    rfl
  · rw [Slot.tellsHost_absorbed]
    rfl

/-! ### The end of an entry (R33) -/

/-- R33, R63: the entry is freed, and with the last one in FENCING the slot leaves. -/
theorem State.removeEntry_eq (s : State) (i : SlotId) (tag : Tag) (l : List Entry)
    (hl : ((s.slot i).entries.eraseP fun e => e.tag == tag) = l) :
    s.removeEntry i tag =
      if (s.slot i).ctl.state = .fencing ∧ l = [] then (s.frees i { s.slot i with entries := l }).leavesFencing i
      else s.frees i { s.slot i with entries := l } := by
  have hstate : ((s.frees i { s.slot i with entries := l }).slot i).ctl.state = (s.slot i).ctl.state := by
    rw [(State.frees_spares s i _ i).2.2, State.slot_setSlot_self]
  simp only [State.removeEntry, State.freeEntry_eq, hl, hstate, Bool.and_eq_true, decide_eq_true_eq, State.leaveFencing_eq,
    List.isEmpty_iff]
  by_cases hfencing : (s.slot i).ctl.state = .fencing
  · have hclosed : ¬ ({ s.slot i with entries := l } : Slot).serving := Slot.not_serving_of_fencing hfencing
    rw [State.slot_frees (.inl hclosed)]
  · simp only [hfencing, false_and, if_false]

/-- R34, R35: at its deadline an entry is answered by fill mode for what it is owed and freed; then the timeout weight, which reaches a slot
in service only. -/
theorem State.entryExpiry_eq {s : State} {i : SlotId} {e : Entry} {before after : List Entry}
    (hentries : (s.slot i).entries = before ++ e :: after) (hbefore : ∀ x ∈ before, x.tag ≠ e.tag)
    (hdue : e.deadline = s.now) :
    let left := s.frees i
      { ((s.slot i).tellsHost (.completion (fillCompletion (s.slot i).policy.fill e.tag e.fillDwords))) with
        entries := before ++ after }
    s.entryExpiry i e.tag =
      if (s.slot i).ctl.state = .fencing ∧ before ++ after = [] then left.leavesFencing i
      else left.weighs i s.scorer.timeout .timeout := by
  intro left
  have hmiss : ∀ x ∈ before, (x.tag == e.tag) = false := fun x hx => beq_false_of_ne (hbefore x hx)
  have hfind : ((s.slot i).entries.find? fun x => x.tag == e.tag && s.due (some x.deadline)) = some e := by
    rw [hentries]
    exact find_entry (fun x hx => by rw [hmiss x hx, Bool.false_and]) (by simp [State.due, hdue])
  have hremoved : (s.answerEntry i e).removeEntry i e.tag =
      if (s.slot i).ctl.state = .fencing ∧ before ++ after = [] then left.leavesFencing i else left := by
    rw [State.answerEntry_eq, State.removeEntry_eq _ i e.tag (before ++ after), State.slot_setSlot_self, State.frees_setSlot]
    · rfl
    · rw [State.slot_setSlot_self]
      show ((s.slot i).entries.eraseP _) = _
      rw [hentries]
      exact erase_entry hmiss (beq_self_eq_true _)
  have hscorer : left.scorer = s.scorer := (State.frees_spares s i _ i).1
  simp only [State.entryExpiry, hfind, hremoved, State.cardFault_eq]
  split
  · exact State.weighs_of_not_serving (State.shuts_leavesFencing left i).self _ _
  · rw [hscorer]

/-- Settles O21: the held request and the entry at their deadlines. -/
theorem expiriesAnswerByFillMode : Obligations.ExpiriesAnswerByFillMode := by
  constructor
  · intro s i h hpor hhold hdue sl left weighed
    have hexec : exec (.holdExpiry i) s = .next (s.holdExpiry i) := next_running _ hpor
    rw [hexec, State.holdExpiry_eq hhold hdue]
    exact ⟨fun hposted => by rw [if_pos hposted], fun hposted => by rw [if_neg (by simp [hposted])]⟩
  · intro s i e before after hpor hentries hbefore hdue sl left
    have hexec : exec (.entryExpiry i e.tag) s = .next (s.entryExpiry i e.tag) := next_running _ hpor
    have hstate : (left.slot i).ctl.state = (s.slot i).ctl.state := by
      rw [(State.frees_spares s i _ i).2.2, State.slot_setSlot_self]
      rfl
    rw [hexec, State.entryExpiry_eq hentries hbefore hdue]
    refine ⟨fun hserves => ?_, fun hfencing => ⟨fun hrest => ?_, fun hlast => ?_⟩⟩
    · rw [if_neg fun hlast => Slot.not_serving_of_fencing hlast.1 hserves]
    · rw [if_neg fun hlast => hrest hlast.2]
      exact congrArg _ (State.weighs_of_not_serving (Slot.not_serving_of_fencing (hstate.trans hfencing)) _ _)
    · rw [if_pos ⟨hfencing, hlast⟩]

/-! ### How a completion fits an entry (R29 to R31) -/

theorem EntryKind.isRead_iff (k : EntryKind) :
    k.isRead = true ↔ k = .memRead ∨ k = .ioRead ∨ ∃ o, k = .cfgRead o := by
  cases k <;> simp [EntryKind.isRead]

theorem EntryKind.isConfig_iff (k : EntryKind) :
    k.isConfig = true ↔ (∃ o, k = .cfgRead o) ∨ ∃ o v m, k = .cfgWrite o v m := by
  cases k <;> simp [EntryKind.isConfig]

/-- R29 to R32: the completion ends the entry. -/
theorem Entry.fit_ends {e : Entry} {c : Completion} (h : e.EndedBy c) : e.fit c = .ends := by
  simp only [Entry.EndedBy, ← EntryKind.isRead_iff, ← EntryKind.isConfig_iff] at h
  obtain hstatus | hstatus | ⟨hstatus, hconfig⟩ | ⟨hstatus, hfinal, ⟨hread, howed⟩ | ⟨hread, hdata⟩⟩ := h
  · simp [Entry.fit, hstatus]
  · simp [Entry.fit, hstatus]
  · simp [Entry.fit, hstatus, hconfig]
  · simp [Entry.fit, hstatus, hread, hfinal, howed]
  · simp [Entry.fit, hstatus, hread, hfinal, hdata]

/-- R29 to R31: it does not fit. -/
theorem Entry.fit_malformed {e : Entry} {c : Completion} (h : e.MalformedBy c) : e.fit c = .malformed := by
  simp only [Entry.MalformedBy, ← EntryKind.isRead_iff, ← EntryKind.isConfig_iff] at h
  obtain ⟨hstatus, hconfig⟩ | ⟨hstatus, hread, hlong | ⟨hfinal, hshort⟩ | ⟨hfinal, hdata⟩⟩ | ⟨hstatus, hread, hrest⟩ := h
  · simp [Entry.fit, hstatus, hconfig]
  · simp [Entry.fit, hstatus, hread, hlong]
  · simp [Entry.fit, hstatus, hread, hfinal, hshort.ne]
  · simp [Entry.fit, hstatus, hread, hfinal, hdata]
  · have hunfit : ¬ (c.final = true ∧ c.data = []) := fun ⟨hfinal, hdata⟩ =>
      hrest.elim (fun h => h hdata) (by simp [hfinal])
    simp [Entry.fit, hstatus, hread, hunfit]

/-- R29: a part of what a read is owed. -/
theorem Entry.fit_partly {e : Entry} {c : Completion} (hread : e.kind.isRead = true) (hstatus : c.status = .success)
    (hfinal : c.final = false) (hdata : c.data ≠ []) (howed : e.delivered + c.data.length ≤ e.owed) : e.fit c = .partly := by
  simp [Entry.fit, hstatus, hread, hfinal, hdata, Nat.not_lt.2 howed]

/-- R13, R32, R117: what the identity capture and the image take, as the closed form. -/
theorem Slot.capture_eq (sl : Slot) (f : List Span) (e : Entry) (c : Completion) : sl.capture f e c = sl.takes f e c := by
  unfold Slot.capture Slot.takes Entry.identity
  cases hkind : e.kind <;> cases hstatus : c.status <;> try rfl
  case cfgRead.success o =>
    match c.data with
    | [] => rfl
    | [d] =>
      by_cases htaken : o = 0 ∧ d ≠ 0xFFFFFFFF#32
      · simp [htaken, Dword.ones]
      · have hnot : ¬ (o = 0 && d != Dword.ones) = true := by simpa [Dword.ones] using htaken
        simp only [if_neg htaken, if_neg hnot]
    | _ :: _ :: _ => rfl

/-- What a completion leaves beside the identity and the image. -/
theorem Slot.takes_keeps (sl : Slot) (f : List Span) (e : Entry) (c : Completion) :
    (sl.takes f e c).entries = sl.entries ∧ (sl.takes f e c).ctl = sl.ctl
      ∧ ∀ l, ({ sl with entries := l } : Slot).takes f e c = { sl.takes f e c with entries := l } := by
  unfold Slot.takes
  split
  · split <;> exact ⟨rfl, rfl, fun _ => rfl⟩
  · exact ⟨rfl, rfl, fun _ => rfl⟩
  · exact ⟨rfl, rfl, fun _ => rfl⟩

/-- A completion that is no SUCCESS is taken nowhere. -/
theorem Slot.takes_of_failed {c : Completion} (sl : Slot) (f : List Span) (e : Entry) (h : c.status ≠ .success) :
    sl.takes f e c = sl := by
  unfold Slot.takes
  split
  · next hsuccess _ => exact absurd hsuccess h
  · next hsuccess => exact absurd hsuccess h
  · rfl

/-! ### CARD_COMPLETION -/

/-- A well-formed CARD_COMPLETION acts on the part once POR# is released. -/
theorem exec_cardCompletion {s : State} {c : Completion} (i : SlotId) (dest : Addressee) (hwf : c.wf = true)
    (hpor : s.porHeld = false) : exec (.cardCompletion i dest c) s = .next (s.cardCompletion i dest c) :=
  (if_pos hwf).trans (next_running _ hpor)

theorem SlotState.matches_iff (st : SlotState) : st.matches = true ↔ (st = .online ∨ st = .suspect) ∨ st = .fencing := by
  cases st <;> simp [SlotState.matches, SlotState.isOpen]

/-- R5, R27: in service and in FENCING the pending table matches. -/
theorem State.cardCompletion_host {s : State} {i : SlotId} (c : Completion) (hup : (s.slot i).chan.linkUp = true)
    (hmatches : (s.slot i).serving ∨ (s.slot i).ctl.state = .fencing) :
    s.cardCompletion i .host c = s.matchCompletion i c := by
  simp only [State.cardCompletion, State.when, if_pos hup, if_pos ((SlotState.matches_iff _).2 hmatches)]

theorem find_tag {l before after : List Entry} {e : Entry} {tag : Tag} (hl : l = before ++ e :: after)
    (hbefore : ∀ x ∈ before, x.tag ≠ e.tag) (htag : tag = e.tag) : (l.find? fun x => x.tag == tag) = some e := by
  subst hl htag
  exact find_entry (fun x hx => beq_false_of_ne (hbefore x hx)) (beq_self_eq_true _)

/-- R32, R33: a completion that ends its entry is forwarded, taken note of, and the entry freed. -/
theorem State.matchCompletion_ends {s : State} {i : SlotId} {c : Completion} {e : Entry} {before after : List Entry}
    (hentries : (s.slot i).entries = before ++ e :: after) (hbefore : ∀ x ∈ before, x.tag ≠ e.tag) (htag : c.tag = e.tag)
    (hends : e.EndedBy c) :
    let left := s.frees i
      (({ (s.slot i).tellsHost (.completion c) with entries := before ++ after } : Slot).takes s.filter e c)
    s.matchCompletion i c =
      if (s.slot i).ctl.state = .fencing ∧ before ++ after = [] then left.leavesFencing i else left := by
  intro left
  obtain ⟨hkept, hctl, hcommutes⟩ := ((s.slot i).tellsHost (.completion c)).takes_keeps s.filter e c
  have htaken : (s.toHost i (.completion c)).modSlot i (fun sl => sl.capture s.filter e c) =
      s.setSlot i (((s.slot i).tellsHost (.completion c)).takes s.filter e c) := by
    simp only [State.toHost_eq_setSlot, State.modSlot, State.slot_setSlot_self, State.setSlot_setSlot, Slot.capture_eq]
  simp only [State.matchCompletion, find_tag hentries hbefore htag, Entry.fit_ends hends]
  rw [htaken, State.removeEntry_eq _ i c.tag (before ++ after), State.slot_setSlot_self, State.frees_setSlot, hctl,
    ← hcommutes]
  · rfl
  · rw [State.slot_setSlot_self, hkept]
    show ((s.slot i).entries.eraseP _) = _
    rw [hentries, htag]
    exact erase_entry (fun x hx => beq_false_of_ne (hbefore x hx)) (beq_self_eq_true _)

/-- R29: a completion that brings a part is forwarded, and the dwords delivered increase. -/
theorem State.matchCompletion_partly {s : State} {i : SlotId} {c : Completion} {e : Entry} {before after : List Entry}
    (hentries : (s.slot i).entries = before ++ e :: after) (hothers : ∀ x ∈ before ++ after, x.tag ≠ e.tag)
    (htag : c.tag = e.tag) (hpartly : e.fit c = .partly) :
    s.matchCompletion i c = s.setSlot i
      { (s.slot i).tellsHost (.completion c) with
        entries := before ++ { e with delivered := e.delivered + c.data.length } :: after } := by
  have hbefore : ∀ x ∈ before, x.tag ≠ e.tag := fun x hx => hothers x (List.mem_append_left _ hx)
  have hkept {l : List Entry} (hl : ∀ x ∈ l, x ∈ before ++ after) :
      (l.map fun x => if x.tag = c.tag then { x with delivered := x.delivered + c.data.length } else x) = l :=
    (List.map_congr_left fun x hx => if_neg (htag ▸ hothers x (hl x hx))).trans (List.map_id _)
  have hdelivered : ((s.slot i).tellsHost (.completion c)).deliver c.tag c.data.length =
      { (s.slot i).tellsHost (.completion c) with
        entries := before ++ { e with delivered := e.delivered + c.data.length } :: after } := by
    rw [Slot.deliver, Slot.tellsHost, hentries, List.map_append, List.map_cons, if_pos htag.symm,
      hkept fun x hx => List.mem_append_left _ hx, hkept fun x hx => List.mem_append_right _ hx]
  simp only [State.matchCompletion, find_tag hentries hbefore htag, hpartly, State.toHost_eq_setSlot, State.modSlot,
    State.slot_setSlot_self, State.setSlot_setSlot, hdelivered]

/-- Settles O22: a completion that ends the entry, by its status and the entry's kind; and one that brings a part. -/
theorem completionMeetsItsEntry : Obligations.CompletionMeetsItsEntry := by
  intro s i c e before after hwf hpor hup hentries htag hstate sl left done ends
  have hdone : done = .next (s.matchCompletion i c) := by
    rw [← State.cardCompletion_host c hup hstate]
    exact exec_cardCompletion i .host hwf hpor
  refine ⟨fun hbefore => ?_, fun hothers hread hsuccess hfinal hdata howed => ?_⟩
  · have hended (hends : e.EndedBy c) : done = .next
        (if sl.ctl.state = .fencing ∧ before ++ after = [] then (s.frees i (left.takes s.filter e c)).leavesFencing i
        else s.frees i (left.takes s.filter e c)) := by
      rw [hdone, State.matchCompletion_ends hentries hbefore htag hends]
    refine ⟨fun hstays => ?_, fun hfencing hlast hends => by rw [hended hends, if_pos ⟨hfencing, hlast⟩]⟩
    have hnotLast : ¬ (sl.ctl.state = .fencing ∧ before ++ after = []) := fun ⟨hfencing, hlast⟩ =>
      hstays.elim (Slot.not_serving_of_fencing hfencing) fun hrest => hrest hlast
    have hleft {x : Slot} (hends : e.EndedBy c) (hx : left.takes s.filter e c = x) : ends x := by
      show done = _
      rw [hended hends, if_neg hnotLast, hx]
    refine ⟨fun hfailed => ?_, fun hretry hconfig => ?_, fun hsuccess hfinal => ⟨fun hkind howed => ?_, fun hkind hdata => ?_,
      fun o d hkind howed hdelivered hdata => ?_, fun o v m hkind hdata => ?_⟩⟩
    · refine hleft (hfailed.imp_right .inl) (Slot.takes_of_failed left _ _ ?_)
      obtain h | h := hfailed <;> simp [h]
    · exact hleft (.inr (.inr (.inl ⟨hretry, hconfig⟩))) (Slot.takes_of_failed left _ _ (by simp [hretry]))
    · refine hleft (.inr (.inr (.inr ⟨hsuccess, hfinal, .inl ⟨?_, howed⟩⟩))) ?_
      · exact hkind.imp_right .inl
      · obtain h | h := hkind <;> simp only [Slot.takes, h]
    · refine hleft (.inr (.inr (.inr ⟨hsuccess, hfinal, .inr ⟨by simp [hkind], hdata⟩⟩))) ?_
      simp only [Slot.takes, hkind]
    · refine hleft (.inr (.inr (.inr ⟨hsuccess, hfinal, .inl ⟨.inr (.inr ⟨o, hkind⟩), ?_⟩⟩))) ?_
      · simp [howed, hdelivered, hdata]
      · simp only [Slot.takes, hkind, hsuccess, hdata]
    · refine hleft (.inr (.inr (.inr ⟨hsuccess, hfinal, .inr ⟨by simp [hkind], hdata⟩⟩))) ?_
      simp only [Slot.takes, hkind, hsuccess]
      rfl
  · rw [hdone, State.matchCompletion_partly hentries hothers htag
      (Entry.fit_partly ((EntryKind.isRead_iff _).2 hread) hsuccess hfinal hdata howed)]

/-! ### Completions that fit nothing -/

theorem State.matchCompletion_stray {s : State} {i : SlotId} {c : Completion}
    (hnone : ∀ e ∈ (s.slot i).entries, e.tag ≠ c.tag) :
    s.matchCompletion i c = s.weighs i s.scorer.stray .stray := by
  have hfind : ((s.slot i).entries.find? fun e => e.tag == c.tag) = none := by simpa using hnone
  simp only [State.matchCompletion, hfind, State.cardFault_eq]

theorem State.matchCompletion_malformed {s : State} {i : SlotId} {c : Completion} {e : Entry} {before after : List Entry}
    (hentries : (s.slot i).entries = before ++ e :: after) (hbefore : ∀ x ∈ before, x.tag ≠ e.tag) (htag : c.tag = e.tag)
    (hmalformed : e.MalformedBy c) : s.matchCompletion i c = s.weighs i s.scorer.malformed .malformed := by
  simp only [State.matchCompletion, find_tag hentries hbefore htag, Entry.fit_malformed hmalformed, State.cardFault_eq]

/-- R126: with nothing outstanding that a completion answers, the replay takes no note of it. -/
theorem State.replayCompletion_of_unfit {s : State} {i : SlotId} {c : Completion}
    (h : (s.slot i).ctl.state ≠ .restoring ∨ ∀ o, (s.slot i).store.outstanding = some o →
      o.tag ≠ c.tag ∨ (c.status = .success ∧ (c.data ≠ [] ∨ c.final = false))) : s.replayCompletion i c = s := by
  unfold State.replayCompletion
  dsimp only
  split
  next hanswers =>
    simp only [Bool.and_eq_true, decide_eq_true_eq, Option.any_eq_true, beq_iff_eq] at hanswers
    obtain ⟨hrestoring, o, ho, htag⟩ := hanswers
    obtain ⟨hsuccess, hrest⟩ := (h.resolve_left (not_not_intro hrestoring) o ho).resolve_left (not_not_intro htag)
    have hunfit : ¬ (c.data.isEmpty && c.final) = true := by
      rw [Bool.and_eq_true, List.isEmpty_iff]
      exact fun ⟨hdata, hfinal⟩ => hrest.elim (fun k => k hdata) (by simp [hfinal])
    simp only [hsuccess, if_neg hunfit]
  next => rfl

/-- Settles O24: the completions that nothing takes, the stray ones, and the malformed ones. -/
theorem unfitCompletionsAreDropped : Obligations.UnfitCompletionsAreDropped := by
  constructor
  · intro s i dest c hwf hpor hunfit
    rw [exec_cardCompletion i dest hwf hpor]
    refine congrArg _ ?_
    unfold State.cardCompletion State.when
    split
    next hup =>
      cases dest with
      | host =>
        simp only [hup, reduceCtorEq, false_and, or_false, true_and, Bool.true_eq_false, false_or] at hunfit
        have hmatches : ¬ (s.slot i).ctl.state.matches = true := by
          rw [SlotState.matches_iff]
          exact fun h => h.elim hunfit.1 hunfit.2
        exact if_neg hmatches
      | part =>
        simp only [hup, reduceCtorEq, false_and, true_and, Bool.true_eq_false, false_or] at hunfit
        exact State.replayCompletion_of_unfit hunfit
    next => rfl
  · intro s i c hwf hpor hup sl done
    have hdone (hstate : sl.serving ∨ sl.ctl.state = .fencing) : done = .next (s.matchCompletion i c) := by
      rw [← State.cardCompletion_host c hup hstate]
      exact exec_cardCompletion i .host hwf hpor
    have hfenced (hfencing : sl.ctl.state = .fencing) (w : Nat) (why : Reason) : s.weighs i w why = s :=
      State.weighs_of_not_serving (Slot.not_serving_of_fencing hfencing) w why
    refine ⟨fun hnone => ⟨fun hserves => ?_, fun hfencing => ?_⟩,
      fun e before after hentries hbefore htag hmalformed => ⟨fun hserves => ?_, fun hfencing => ?_⟩⟩
    · rw [hdone (.inl hserves), State.matchCompletion_stray hnone]
    · rw [hdone (.inr hfencing), State.matchCompletion_stray hnone, hfenced hfencing]
    · rw [hdone (.inl hserves), State.matchCompletion_malformed hentries hbefore htag hmalformed]
    · rw [hdone (.inr hfencing), State.matchCompletion_malformed hentries hbefore htag hmalformed, hfenced hfencing]

end Sys2Proof.Machine
end

section
/-! The card's own requests and the host's completions to them: the outbound set, the card-side hold and a failing check (R3, R12, R72 to R76,
R154 to R157). -/

namespace Sys2Proof.Machine

/-! ### A check that fails (R155 to R157) -/

/-- R157, R156: the mark, the one report of an epoch, and the weight. -/
theorem State.errant_eq (s : State) (i : SlotId) (a : BitVec 48) (why : Reason) :
    s.errant i a why =
      (let t := s.setSlot i { s.slot i with permit.errantReported := true }
      if (s.slot i).permit.errantReported = true then t
      else t.reporting (s.note .errant i (some why) (some (a.toNat / 4096)))).weighs i s.scorer.errant .errant := by
  have hmarked : (s.slot i).permit.errantReported = true →
      ({ s.slot i with permit.errantReported := true } : Slot) = s.slot i := fun h => by rw [← h]
  simp only [State.errant, State.cardFault_eq]
  split
  next h => rw [hmarked h, State.setSlot_slot]
  next h =>
    rw [State.report_eq]
    rfl

/-- R155: the request does not reach the host. -/
theorem State.throughChecker_of_failing {s : State} {i : SlotId} {r : Request} {a : BitVec 48} {n : Nat} {why : Reason}
    (hkind : r.kind = .memRead a n ∨ ∃ d : List Dword, r.kind = .memWrite a d ∧ d.length = n)
    (hfails : s.permitCheck i a n = some why) : s.throughChecker i r = s.turnsErrant i r a why := by
  obtain hkind | ⟨d, hkind, rfl⟩ := hkind
  · have hposted : ¬ r.posted = true := by simp [Request.posted, hkind]
    simp only [State.throughChecker, hkind, hfails, State.turnsErrant, if_neg hposted]
    rw [State.errant_eq, State.toCard_eq_setSlot, State.slot_setSlot_self, State.setSlot_setSlot]
    rfl
  · have hposted : r.posted = true := by simp [Request.posted, hkind]
    simp only [State.throughChecker, hkind, hfails, State.turnsErrant, if_pos hposted]
    rw [State.errant_eq]

/-- Settles O30: a read with room in the outbound set and a write both come to the checker, which turns them back. -/
theorem failingCardRequestIsErrant : Obligations.FailingCardRequestIsErrant := by
  intro s i r a n why hwf hpor hclear hopen sl hrequest hfails
  have hexec : TxKind.turnedBack r.kind = false → exec (.cardRequest i r) s = .next (s.cardOpen i r) :=
    exec_cardRequest_of_serving hwf hpor hclear hopen
  obtain ⟨hkind, hnew, hroom⟩ | ⟨d, hkind, hlength⟩ := hrequest
  · have hposted : r.posted = false := by simp [Request.posted, hkind]
    rw [hexec (by rw [hkind]; rfl), State.cardOpen_of_new hposted hnew hroom,
      State.throughChecker_of_failing (.inl hkind) hfails]
  · have hposted : r.posted = true := by simp [Request.posted, hkind]
    rw [hexec (by rw [hkind]; rfl), State.cardOpen_of_posted i hposted,
      State.throughChecker_of_failing (.inr ⟨d, hkind, hlength⟩) hfails]

/-! ### A read whose tag is held, or that finds the set full (R12, R73) -/

theorem Outbound.lookup_eq_some {o : Outbound} {before after : List OutTag} {tag : Tag} {ghost : Bool}
    (htags : o.tags = before ++ { tag := tag, ghost := ghost } :: after) (hbefore : ∀ t ∈ before, t.tag ≠ tag) :
    o.lookup tag = some { tag := tag, ghost := ghost } := by
  have hmiss : before.find? (fun t => t.tag == tag) = none := by simpa using hbefore
  rw [Outbound.lookup, htags, List.find?_append, hmiss, Option.none_or]
  exact List.find?_cons_of_pos (beq_self_eq_true _)

theorem State.holdCard_eq (s : State) (i : SlotId) (r : Request) :
    s.holdCard i r = s.setSlot i { s.slot i with chan.cardHold := some r } := rfl

/-- R73: a ghost keeps its tag. -/
theorem State.cardOpen_of_ghost {s : State} {i : SlotId} {r : Request} {before after : List OutTag}
    (hposted : r.posted = false) (htags : (s.slot i).outbound.tags = before ++ { tag := r.tag, ghost := true } :: after)
    (hbefore : ∀ t ∈ before, t.tag ≠ r.tag) : s.cardOpen i r = s.holdCard i r := by
  simp only [State.cardOpen, hposted, Bool.false_eq_true, if_false, Outbound.lookup_eq_some htags hbefore, if_true]

/-- R73: a live tag is a card's error. -/
theorem State.cardOpen_of_live {s : State} {i : SlotId} {r : Request} {before after : List OutTag}
    (hposted : r.posted = false) (htags : (s.slot i).outbound.tags = before ++ { tag := r.tag, ghost := false } :: after)
    (hbefore : ∀ t ∈ before, t.tag ≠ r.tag) :
    s.cardOpen i r = (s.setSlot i ((s.slot i).tellsCard (.completion (Completion.bare r.tag .unsupported)))).reporting
      (s.note .protocol i (some .cardTag) (some r.tag.toNat)) := by
  simp only [State.cardOpen, hposted, Bool.false_eq_true, if_false, Outbound.lookup_eq_some htags hbefore,
    State.toCard_eq_setSlot, State.report_eq]
  rfl

/-- R73: so does a full set. -/
theorem State.cardOpen_of_full {s : State} {i : SlotId} {r : Request} (hposted : r.posted = false)
    (hnew : ∀ t ∈ (s.slot i).outbound.tags, t.tag ≠ r.tag) (hfull : 32 ≤ (s.slot i).outbound.tags.length) :
    s.cardOpen i r = s.holdCard i r := by
  have hcap : Config.outboundCap ≤ (s.slot i).outbound.tags.length := hfull
  simp only [State.cardOpen, hposted, Bool.false_eq_true, if_false, Outbound.lookup_eq_none hnew, if_pos hcap]

/-- R8: behind an occupied hold, or behind earlier requests, it stays in the link. -/
theorem State.cardRequest_of_waiting {s : State} {i : SlotId} (r : Request) (hup : (s.slot i).chan.linkUp = true)
    (hbusy : (s.slot i).chan.cardHold ≠ none ∨ (s.slot i).chan.cardWaiting ≠ []) :
    s.cardRequest i r = s.setSlot i
      { s.slot i with chan.cardWaiting := (s.slot i).chan.cardWaiting ++ [r] } := by
  have hwaits : ((s.slot i).chan.cardHold.isSome || !(s.slot i).chan.cardWaiting.isEmpty) = true := by
    rw [Bool.or_eq_true, Option.isSome_iff_ne_none, Bool.not_eq_true', List.isEmpty_eq_false_iff]
    exact hbusy
  simp only [State.cardRequest, State.when, hup, if_true, hwaits, State.modSlot]

/-- Settles O31: what is turned back in every state, what the outbound set holds back, and what the link keeps. -/
theorem cardRequestIsTurnedBackOrHeld : Obligations.CardRequestIsTurnedBackOrHeld := by
  intro s i r hwf hpor sl done turnedBack waits
  have hexec : done = .next (s.cardRequest i r) := exec_cardRequest i hwf hpor
  refine ⟨fun hdown => ?_, fun hclear => ⟨fun hkinds => ?_, fun a n hkind hopen => ?_⟩, fun hup hbusy => ?_⟩
  · rw [hexec]
    exact congrArg _ (if_neg (by simpa using hdown))
  · have hback : TxKind.turnedBack r.kind = true := by
      obtain ⟨a, h⟩ | ⟨a, m, d, h⟩ | ⟨o, h⟩ | ⟨o, m, d, h⟩ := hkinds <;> rw [h] <;> rfl
    rw [hexec, State.cardRequest_of_cardClear r hclear]
    exact congrArg _ (if_pos hback)
  · have hposted : r.posted = false := by simp [Request.posted, hkind]
    have hopened : done = .next (s.cardOpen i r) :=
      exec_cardRequest_of_serving hwf hpor hclear hopen (by rw [hkind]; rfl)
    refine ⟨fun before after ghost htags hbefore => ⟨?_, ?_⟩, fun hnew hfull => ?_⟩
    · rintro rfl
      show done = _
      rw [hopened, State.cardOpen_of_ghost hposted htags hbefore, State.holdCard_eq]
    · rintro rfl
      rw [hopened, State.cardOpen_of_live hposted htags hbefore]
    · show done = _
      rw [hopened, State.cardOpen_of_full hposted hnew hfull, State.holdCard_eq]
  · rw [hexec, State.cardRequest_of_waiting r hup hbusy]

/-! ### Host completions (R74, R75) -/

theorem exec_hostCompletion {s : State} {c : Completion} (i : SlotId) (hwf : c.wf = true) (hpor : s.porHeld = false) :
    exec (.hostCompletion i c) s = .next (s.hostCompletion i c) := (if_pos hwf).trans (next_running _ hpor)

/-- R12: with nothing in the card-side hold, or at a closed gate, nothing is retried. -/
theorem State.retryCard_of_idle {s : State} {i : SlotId} (h : ¬ (s.slot i).serving ∨ (s.slot i).chan.cardHold = none) :
    s.retryCard i = s := by
  unfold State.retryCard
  split
  next => rfl
  next r hhold =>
    have hclosed : ¬ (s.slot i).serving := h.resolve_right (by simp [hhold])
    exact if_neg (by simp [Slot.inService_of_not_serving hclosed])

/-- R74: what the card is told of a completion to a tag the set holds. -/
def Slot.toldHost (sl : Slot) (ghost : Bool) (c : Completion) : Slot :=
  if sl.inService && !ghost then sl.tellsCard (.completion c) else sl

theorem Slot.toldHost_of_live {sl : Slot} (c : Completion) (h : sl.serving) :
    sl.toldHost false c = sl.tellsCard (.completion c) := if_pos (by simp [Slot.inService_of_serving h])

theorem Slot.toldHost_of_ghost (sl : Slot) (c : Completion) : sl.toldHost true c = sl := if_neg (by simp)

theorem Slot.toldHost_of_closed {sl : Slot} (ghost : Bool) (c : Completion) (h : ¬ sl.serving) : sl.toldHost ghost c = sl :=
  if_neg (by simp [Slot.inService_of_not_serving h])

/-- R74, R75: a completion to a tag the set holds. -/
theorem State.takeHostCompletion_of_held {s : State} {i : SlotId} {c : Completion} {before after : List OutTag} {ghost : Bool}
    (htags : (s.slot i).outbound.tags = before ++ { tag := c.tag, ghost := ghost } :: after)
    (hbefore : ∀ t ∈ before, t.tag ≠ c.tag) :
    s.takeHostCompletion i c =
      if c.final = true then
        (s.setSlot i
          { (s.slot i).toldHost ghost c with
            outbound.tags := ((s.slot i).toldHost ghost c).outbound.tags.filter fun t => t.tag ≠ c.tag }).retryCard i
      else s.setSlot i ((s.slot i).toldHost ghost c) := by
  have htold : (if ((s.slot i).inService && !ghost) = true then s.toCard i (.completion c) else s) =
      s.setSlot i ((s.slot i).toldHost ghost c) := by
    unfold Slot.toldHost
    split
    · exact State.toCard_eq_setSlot s i _
    · exact (State.setSlot_slot s i).symm
  simp only [State.takeHostCompletion, Outbound.lookup_eq_some htags hbefore, htold, State.leaveOutbound, State.modSlot,
    State.slot_setSlot_self, State.setSlot_setSlot, Outbound.leave]

/-- R75: one to no tag is reported while the gate is open. -/
theorem State.takeHostCompletion_of_stray {s : State} {i : SlotId} {c : Completion}
    (hnone : ∀ t ∈ (s.slot i).outbound.tags, t.tag ≠ c.tag) :
    s.takeHostCompletion i c =
      if (s.slot i).inService = true then s.reporting (s.note .protocol i (some .hostStray) (some c.tag.toNat)) else s := by
  simp only [State.takeHostCompletion, Outbound.lookup_eq_none hnone, State.report_eq]
  rfl

/-- R76: at the ghost deadline every ghost leaves the set. -/
theorem State.ghostDeadline_eq {s : State} {i : SlotId} (hdue : (s.slot i).outbound.deadline = some s.now) :
    s.ghostDeadline i = (s.setSlot i
      { s.slot i with
        outbound := { tags := (s.slot i).outbound.tags.filter fun t => t.ghost = false, deadline := none } }).retryCard i := by
  have hfilter : ((s.slot i).outbound.tags.filter fun t => !t.ghost) =
      (s.slot i).outbound.tags.filter fun t => t.ghost = false :=
    List.filter_congr fun t _ => by cases t.ghost <;> rfl
  rw [State.ghostDeadline, State.when, if_pos (State.due_iff.2 hdue), State.modSlot, hfilter]

/-- Settles O32: a completion to a held tag, by its finality, its tag and the gate; one to no tag; and the ghosts' deadline. -/
theorem hostCompletionMeetsTheOutboundSet : Obligations.HostCompletionMeetsTheOutboundSet := by
  constructor
  · intro s i c hwf hpor sl done leaves
    have hexec : done = .next (s.hostCompletion i c) := exec_hostCompletion i hwf hpor
    refine ⟨fun hreset => ?_, fun hrunning => ?_⟩
    · rw [hexec]
      exact congrArg _ (if_neg (by simp [show (s.slot i).chan.inReset = true from hreset]))
    · have htaken : done = .next (s.takeHostCompletion i c) := by
        rw [hexec]
        exact congrArg _ (if_pos (by simp [show (s.slot i).chan.inReset = false from hrunning]))
      refine ⟨fun hnone => ⟨fun hopen => ?_, fun hclosed => ?_⟩, fun before after ghost htags hbefore =>
        ⟨fun hpart => ⟨?_, fun hquiet => ?_⟩, fun hfinal => ⟨fun hopen hhold => ⟨?_, ?_⟩, fun hclosed => ?_⟩⟩⟩
      · rw [htaken, State.takeHostCompletion_of_stray hnone, if_pos (Slot.inService_of_serving hopen)]
      · rw [htaken, State.takeHostCompletion_of_stray hnone, if_neg (by rw [Slot.inService_of_not_serving hclosed]; simp)]
      · rintro hopen rfl
        rw [htaken, State.takeHostCompletion_of_held htags hbefore, if_neg (by simp [hpart]), Slot.toldHost_of_live c hopen]
      · have htold : (s.slot i).toldHost ghost c = s.slot i := by
          obtain rfl | hclosed := hquiet
          · exact Slot.toldHost_of_ghost _ c
          · exact Slot.toldHost_of_closed ghost c hclosed
        rw [htaken, State.takeHostCompletion_of_held htags hbefore, if_neg (by simp [hpart]), htold, State.setSlot_slot]
      · rintro rfl
        rw [htaken, State.takeHostCompletion_of_held htags hbefore, if_pos hfinal, Slot.toldHost_of_live c hopen,
          State.retryCard_of_idle (.inr (by rw [State.slot_setSlot_self]; exact hhold))]
      · rintro rfl
        rw [htaken, State.takeHostCompletion_of_held htags hbefore, if_pos hfinal, Slot.toldHost_of_ghost,
          State.retryCard_of_idle (.inr (by rw [State.slot_setSlot_self]; exact hhold))]
      · rw [htaken, State.takeHostCompletion_of_held htags hbefore, if_pos hfinal, Slot.toldHost_of_closed ghost c hclosed,
          State.retryCard_of_idle (.inl (by rw [State.slot_setSlot_self]; exact hclosed))]
  · intro s i hpor hdue hidle
    have hexec : exec (.ghostDeadline i) s = .next (s.ghostDeadline i) := next_running _ hpor
    rw [hexec, State.ghostDeadline_eq hdue, State.retryCard_of_idle (by rw [State.slot_setSlot_self]; exact hidle)]

/-! ### The held read is retried (R12) -/

/-- R12: in service the held request leaves the hold and comes to the outbound set again. -/
theorem State.retryCard_of_held {s : State} {i : SlotId} {x : Slot} {r : Request} (hopen : x.serving)
    (hhold : x.chan.cardHold = some r) :
    (s.setSlot i x).retryCard i = (s.setSlot i { x with chan.cardHold := none }).cardOpen i r := by
  simp only [State.retryCard, State.slot_setSlot_self, hhold, State.when, Slot.inService_of_serving hopen, if_true,
    State.modSlot, State.setSlot_setSlot]

theorem Slot.hold_back {x : Slot} {r : Request} (h : x.chan.cardHold = some r) :
    ({ ({ x with chan.cardHold := none } : Slot) with chan.cardHold := some r } : Slot) = x := by rw [← h]

/-- R160: the check reads the deny ranges and the slot's windows only. -/
theorem State.permitCheck_setSlot {s : State} {i : SlotId} {x : Slot} (h : x.permit = (s.slot i).permit) (a : BitVec 48)
    (n : Nat) : (s.setSlot i x).permitCheck i a n = s.permitCheck i a n := by
  simp only [State.permitCheck, State.slot_setSlot_self, h, State.setSlot_deny]

/-- Settles O33: after the final completion and after the ghosts' deadline the held read comes to the outbound set again. -/
theorem heldCardReadIsRetried : Obligations.HeldCardReadIsRetried := by
  intro s i r a n hpor hopen hhold hkind retried
  have hposted : r.posted = false := by simp [Request.posted, hkind]
  have hretried {done : Host.Outcome State Fault Refusal} {left : Slot} (hdone : done = .next ((s.setSlot i left).retryCard i))
      (hstate : left.serving) (hleft : left.chan.cardHold = some r) (hpermit : left.permit = (s.slot i).permit) :
      retried done left := by
    rw [State.retryCard_of_held hstate hleft] at hdone
    have hfreed : (s.setSlot i { left with chan.cardHold := none }).slot i = { left with chan.cardHold := none } :=
      State.slot_setSlot_self s i _
    have hstays {t : State} (ht : t = (s.setSlot i { left with chan.cardHold := none }).holdCard i r) :
        t = s.setSlot i left := by
      rw [ht, State.holdCard_eq, hfreed, State.setSlot_setSlot, Slot.hold_back hleft]
    refine ⟨fun ⟨before, after, htags, hbefore⟩ => ?_, fun hnew => ⟨fun hfull => ?_, fun hroom => ?_⟩⟩
    · rw [hdone]
      exact congrArg _ (hstays (State.cardOpen_of_ghost hposted (by rw [hfreed]; exact htags) hbefore))
    · rw [hdone]
      exact congrArg _ (hstays (State.cardOpen_of_full hposted (by rw [hfreed]; exact hnew) (by rw [hfreed]; exact hfull)))
    · rw [hdone, State.cardOpen_of_new hposted (by rw [hfreed]; exact hnew) (by rw [hfreed]; exact hroom)]
      have hcheck : (s.setSlot i { left with chan.cardHold := none }).permitCheck i a n = s.permitCheck i a n :=
        State.permitCheck_setSlot (x := { left with chan.cardHold := none }) hpermit a n
      refine ⟨fun hpass => ?_, fun why hfails => ?_⟩
      · rw [State.throughChecker_of_memRead hkind (hcheck.trans hpass), hfreed,
          State.setSlot_setSlot]
        rfl
      · rw [State.throughChecker_of_failing (.inl hkind) (hcheck.trans hfails)]
  constructor
  · intro c before after ghost hwf hrunning hfinal htags hbefore told
    have htold : (s.slot i).toldHost ghost c = told := by
      cases ghost
      · exact Slot.toldHost_of_live c hopen
      · exact Slot.toldHost_of_ghost _ c
    have hkept : told.ctl = (s.slot i).ctl ∧ told.chan.cardHold = (s.slot i).chan.cardHold
        ∧ told.permit = (s.slot i).permit := by
      cases ghost <;> exact ⟨rfl, rfl, rfl⟩
    obtain ⟨hctl, hcard, hpermit⟩ := hkept
    have hserves : told.serving := by
      rw [Slot.serving, hctl]
      exact hopen
    refine hretried ?_ hserves (hcard.trans hhold) hpermit
    have htaken : s.hostCompletion i c = s.takeHostCompletion i c := if_pos (by simp [hrunning])
    rw [exec_hostCompletion i hwf hpor, htaken, State.takeHostCompletion_of_held htags hbefore, if_pos hfinal, htold]
  · intro hdue
    refine hretried ?_ hopen hhold rfl
    have hexec : exec (.ghostDeadline i) s = .next (s.ghostDeadline i) := next_running _ hpor
    rw [hexec, State.ghostDeadline_eq hdue]

end Sys2Proof.Machine
end

section
/-! Link events in service, and where a card-fault weight takes the slot (R14 to R16, R46, R50, R51). -/

namespace Sys2Proof.Machine

/-! ### The outcomes of a weight (R50) -/

/-- R46, R50: in service a weight that is not 0 is added, and the first test that applies acts. -/
theorem State.weighs_of_serving {s : State} {i : SlotId} {w : Nat} (why : Reason) (hopen : (s.slot i).serving) (hw : w ≠ 0) :
    s.weighs i w why =
      (let score := (s.slot i).scoreAfter w
      let scored := s.setSlot i { s.slot i with ctl.score := score }
      if s.scorer.fence ≤ score then
        (scored.reporting (s.note .hang i (some why) (some score))).fences i .score .recover
      else if (s.slot i).ctl.state = .online ∧ s.scorer.warn ≤ score then scored.serves i .suspect
      else if (s.slot i).ctl.state = .suspect ∧ score < s.scorer.warn / 2 then scored.serves i .online
      else scored) := by
  have hserves : ({ s.slot i with ctl.score := (s.slot i).scoreAfter w } : Slot).serving := hopen
  rw [State.weighs, if_pos ⟨hopen, hw⟩, State.evaluates, State.slot_setSlot_self, if_neg (not_not_intro hserves)]
  rfl

/-- R50, R51: the new score is the move's own. -/
theorem State.serves_scored (s : State) (i : SlotId) (st : SlotState) (n : Nat) :
    (s.setSlot i { s.slot i with ctl.score := n }).serves i st =
      (s.moved i
        { s.slot i with
          chan.gateOpen := true
          ctl := { (s.slot i).ctl.into st with score := n, lastReported := st } }).reporting
        (s.stateNote i st (some .score) (some n)) := by
  rw [State.serves, State.slot_setSlot_self, State.stateNote, State.slot_setSlot_self]
  exact congrArg (State.reporting · _) (s.ctl_moved i { (s.slot i).ctl with score := n } _ rfl rfl)

/-- What a slot in service keeps of a weight that leaves it there. -/
theorem State.weighs_keeps (s : State) (i : SlotId) (w : Nat) (why : Reason) (h : ((s.weighs i w why).slot i).serving) :
    (s.weighs i w why).now = s.now ∧ ((s.weighs i w why).slot i).policy = (s.slot i).policy := by
  by_cases hact : (s.slot i).serving ∧ w ≠ 0
  · obtain ⟨hopen, hw⟩ := hact
    rw [State.weighs_of_serving why hopen hw] at h ⊢
    dsimp only at h ⊢
    split
    next hfence => exact absurd (by rwa [if_pos hfence] at h) (State.shuts_fences _ i .score .recover)
    next =>
      split
      next => exact ⟨rfl, by rw [State.serves_scored]; exact s.moved_policy i _⟩
      next =>
        split
        next => exact ⟨rfl, by rw [State.serves_scored]; exact s.moved_policy i _⟩
        next => exact ⟨rfl, by rw [State.slot_setSlot_self]⟩
  · rw [State.weighs, if_neg hact]
    exact ⟨rfl, rfl⟩

/-! ### LINK_DOWN and LINK_UP -/

theorem State.linkDown_of_closed {s : State} {i : SlotId} (hclosed : ¬ (s.slot i).serving)
    (hstate : (s.slot i).ctl.state ≠ .restoring) :
    s.linkDown i = s.setSlot i { s.slot i with chan.linkUp := false, chan.cardWaiting := [] } := by
  have hservice : ¬ (s.slot i).inService = true := by simp [Slot.inService_of_not_serving hclosed]
  unfold State.linkDown
  dsimp only
  rw [State.slot_modSlot_self]
  exact (if_neg hservice).trans (if_neg hstate)

/-- R15: the grace timer starts where the slot is still in service. -/
def State.startGrace (s : State) (i : SlotId) : State :=
  s.when (s.slot i).inService fun s =>
    s.modSlot i fun sl => { sl with ctl.graceTimer := some (s.afterMs sl.policy.linkGrace) }

theorem State.linkDown_of_serving {s : State} {i : SlotId} (hopen : (s.slot i).serving) :
    s.linkDown i =
      (let hit := (s.setSlot i { s.slot i with chan.linkUp := false, chan.cardWaiting := [] }).weighs i
        s.scorer.linkDown .linkDown
      if (hit.slot i).serving then hit.setSlot i
        { hit.slot i with ctl.graceTimer := some (s.now + BitVec.ofNat 32 (1000 * (s.slot i).policy.linkGrace)) }
      else hit) := by
  have hservice : (s.slot i).inService = true := Slot.inService_of_serving hopen
  have hcounted : s.linkDown i =
      ((s.setSlot i { s.slot i with chan.linkUp := false, chan.cardWaiting := [] }).cardFault i s.scorer.linkDown
        .linkDown).startGrace i := by
    unfold State.linkDown
    dsimp only
    rw [State.slot_modSlot_self]
    exact if_pos hservice
  rw [hcounted, State.cardFault_eq]
  have hkeeps := State.weighs_keeps (s.setSlot i { s.slot i with chan.linkUp := false, chan.cardWaiting := [] }) i
    s.scorer.linkDown .linkDown
  rw [State.slot_setSlot_self] at hkeeps
  generalize State.weighs _ i _ _ = hit at hkeeps ⊢
  dsimp only
  simp only [State.startGrace, State.when, Slot.inService_iff]
  split
  next hstays =>
    obtain ⟨hnow, hpolicy⟩ := hkeeps hstays
    rw [State.modSlot, State.afterMs, State.after, hnow, hpolicy]
    rfl
  next => rfl

theorem State.linkUp_eq {s : State} {i : SlotId} :
    s.linkUp i =
      if (s.slot i).serving then
        (s.setSlot i { s.slot i with chan.linkUp := true, ctl.graceTimer := none }).reoffersHold i
      else if (s.slot i).ctl.state = .training then
        (s.setSlot i { s.slot i with chan.linkUp := true }).enterRestoring i
      else s.setSlot i { s.slot i with chan.linkUp := true } := by
  unfold State.linkUp
  dsimp only
  rw [State.slot_modSlot_self]
  simp only [Slot.inService_iff, State.modSlot_modSlot, State.offerHeld_eq_reoffersHold]
  rfl

/-- Settles O34: LINK_DOWN and LINK_UP in and out of service. -/
theorem cardLinkEventsInService : Obligations.CardLinkEventsInService := by
  intro s i hpor sl down up
  have hdown : exec (.linkDown i) s = .next (s.linkDown i) := next_running _ hpor
  have hup : exec (.linkUp i) s = .next (s.linkUp i) := next_running _ hpor
  refine ⟨fun hclosed hstate => ?_, fun hopen => ?_, fun hclosed hstate => ?_, fun hopen => ?_⟩
  · rw [hdown, State.linkDown_of_closed hclosed hstate]
  · intro hit
    rw [hdown, State.linkDown_of_serving hopen]
  · rw [hup, State.linkUp_eq, if_neg hclosed, if_neg hstate]
  · rw [hup, State.linkUp_eq, if_pos hopen]

/-! ### The thresholds -/

/-- What moves is set by the slot as it becomes and by the outputs it had. -/
theorem State.moved_of_setSlot (s : State) (i : SlotId) {x y : Slot} (new : Slot) (hp : x.pwren = y.pwren)
    (hb : x.blinks = y.blinks) : (s.setSlot i x).moved i new = (s.setSlot i y).moved i new := by
  simp only [State.moved, State.slot_setSlot_self, State.setSlot_setSlot, hp, hb]
  rfl

/-- R15, R60: a fence stops the grace timer. -/
theorem State.fences_graceTimer (s : State) (i : SlotId) (x : Slot) (t : Timer) (r : Reason) (d : Disposition) :
    (s.setSlot i { x with ctl.graceTimer := t }).fences i r d = (s.setSlot i x).fences i r d := by
  have hmoved (new : Slot) : (s.setSlot i { x with ctl.graceTimer := t }).moved i new = (s.setSlot i x).moved i new :=
    s.moved_of_setSlot i new (Slot.pwren_congr rfl rfl rfl) (Slot.blinks_congr rfl rfl rfl rfl)
  have hfencing : (s.setSlot i { x with ctl.graceTimer := t }).goesFencing i r d = (s.setSlot i x).goesFencing i r d := by
    simp only [State.goesFencing, State.stateNote, State.slot_setSlot_self, hmoved, State.now_setSlot,
      State.setSlot_elapsed]
    rfl
  simp only [State.fences, hfencing, State.slot_setSlot_self]

/-- R15: a move within the service leaves it running. -/
theorem State.serves_graceTimer (s : State) (i : SlotId) (x : Slot) (t : Timer) {st : SlotState}
    (hst : st = .online ∨ st = .suspect) :
    (s.setSlot i { x with ctl.graceTimer := t }).serves i st =
      (let hit := (s.setSlot i x).serves i st
      if (hit.slot i).serving then hit.setSlot i { hit.slot i with ctl.graceTimer := t } else hit) := by
  have hstays : (((s.setSlot i x).serves i st).slot i).serving := by
    show ((State.moved _ i _).slot i).ctl.state = .online ∨ ((State.moved _ i _).slot i).ctl.state = .suspect
    rw [State.moved_state]
    exact hst
  dsimp only
  rw [if_pos hstays]
  show _ = ((s.setSlot i x).serves i st).modSlot i fun sl => { sl with ctl.graceTimer := t }
  simp only [State.serves, State.stateNote, State.slot_setSlot_self]
  rw [State.reporting_modSlot, State.modSlot_moved_ctl _ i _ (fun c => { c with graceTimer := t }) (fun _ _ => rfl)
    (fun _ _ _ => rfl) rfl rfl, s.moved_of_setSlot i (x := { x with ctl.graceTimer := t }) (y := x) _ (Slot.pwren_congr rfl rfl rfl) (Slot.blinks_congr rfl rfl rfl rfl)]
  simp only [Controller.into, if_pos hst]
  rfl

/-- R15: the grace timer started before the weight is the one started after it, where the slot stays in service; a fence stops it. -/
theorem State.weighs_graceTimer (s : State) (i : SlotId) (x : Slot) (t : Timer) (w : Nat) (why : Reason)
    (hopen : x.serving) :
    (s.setSlot i { x with ctl.graceTimer := t }).weighs i w why =
      (let hit := (s.setSlot i x).weighs i w why
      if (hit.slot i).serving then hit.setSlot i { hit.slot i with ctl.graceTimer := t } else hit) := by
  by_cases hw : w = 0
  · subst hw
    dsimp only
    rw [State.weighs_zero, State.weighs_zero, State.slot_setSlot_self, if_pos hopen, State.setSlot_setSlot]
  · rw [State.weighs_of_serving why (s := s.setSlot i x) (by rw [State.slot_setSlot_self]; exact hopen) hw,
      State.weighs_of_serving why (by rw [State.slot_setSlot_self]; exact hopen) hw]
    simp only [State.slot_setSlot_self, State.setSlot_setSlot, State.setSlot_scorer]
    have hscore : Slot.scoreAfter { x with ctl.graceTimer := t } w = x.scoreAfter w := rfl
    rw [hscore]
    generalize x.scoreAfter w = n
    have hserves (st : SlotState) (hst : st = .online ∨ st = .suspect) :
        (s.setSlot i { ({ x with ctl.graceTimer := t } : Slot) with ctl.score := n }).serves i st =
          (let hit := (s.setSlot i { x with ctl.score := n }).serves i st
          if (hit.slot i).serving then hit.setSlot i { hit.slot i with ctl.graceTimer := t } else hit) :=
      State.serves_graceTimer s i { x with ctl.score := n } t hst
    by_cases hfence : s.scorer.fence ≤ n
    · simp only [if_pos hfence]
      rw [if_neg (State.shuts_fences _ i .score .recover)]
      exact State.fences_graceTimer (s.reporting (s.note .hang i (some why) (some n))) i { x with ctl.score := n } t .score
        .recover
    · simp only [if_neg hfence]
      by_cases hwarn : x.ctl.state = .online ∧ s.scorer.warn ≤ n
      · simp only [if_pos hwarn]
        exact hserves .suspect (.inr rfl)
      · simp only [if_neg hwarn]
        by_cases hcalm : x.ctl.state = .suspect ∧ n < s.scorer.warn / 2
        · simp only [if_pos hcalm]
          exact hserves .online (.inl rfl)
        · simp only [if_neg hcalm]
          rw [State.slot_setSlot_self, State.setSlot_setSlot]
          exact (if_pos (show x.serving from hopen)).symm

theorem State.linkDown_weighs {s : State} {i : SlotId} (hopen : (s.slot i).serving) :
    s.linkDown i = (s.setSlot i
      { s.slot i with
        chan.linkUp := false, chan.cardWaiting := []
        ctl.graceTimer := some (s.now + BitVec.ofNat 32 (1000 * (s.slot i).policy.linkGrace)) }).weighs i
      s.scorer.linkDown .linkDown := by
  rw [State.linkDown_of_serving hopen]
  exact (s.weighs_graceTimer i { s.slot i with chan.linkUp := false, chan.cardWaiting := [] } _ _ .linkDown hopen).symm

/-- Settles O25: each of the six events is a weight on the slot as the event leaves it, and the weight goes by the thresholds. -/
theorem thresholdsMoveTheSlot : Obligations.ThresholdsMoveTheSlot := by
  intro s hit i c weight why hpor hopen sl hevent hweight
  have hkept (u : State) (x : Slot) (hs : u.scorer = s.scorer) (he : u.elapsed = s.elapsed)
      (hx : x.ctl.state = (s.slot i).ctl.state) : (u.setSlot i x).scorer = s.scorer ∧ (u.setSlot i x).elapsed = s.elapsed
        ∧ ((u.setSlot i x).slot i).ctl.state = (s.slot i).ctl.state :=
    ⟨hs, he, by rw [State.slot_setSlot_self]; exact hx⟩
  have hweighed : exec c s = .next (hit.weighs i weight why) ∧ hit.scorer = s.scorer ∧ hit.elapsed = s.elapsed
      ∧ (hit.slot i).ctl.state = (s.slot i).ctl.state := by
    obtain ⟨⟨x, rfl, hwf, hnone⟩, hup, rfl, rfl, rfl⟩
      | ⟨⟨x, before, e, after, rfl, hwf, hentries, hbefore, htag, hmalformed⟩, hup, rfl, rfl, rfl⟩
      | ⟨rfl, rfl, rfl, rfl⟩ | ⟨⟨h, rfl, hhold, hdue, rfl⟩, rfl, rfl⟩
      | ⟨⟨before, e, after, rfl, hentries, hbefore, hdue, rfl⟩, rfl, rfl⟩
      | ⟨⟨r, a, d, x, rfl, hwf, hclear, hkind, hfails, rfl⟩, rfl, rfl⟩ := hevent
    · rw [exec_cardCompletion i .host hwf hpor, State.cardCompletion_host x hup (.inl hopen),
        State.matchCompletion_stray hnone]
      exact ⟨rfl, rfl, rfl, rfl⟩
    · rw [exec_cardCompletion i .host hwf hpor, State.cardCompletion_host x hup (.inl hopen),
        State.matchCompletion_malformed hentries hbefore htag hmalformed]
      exact ⟨rfl, rfl, rfl, rfl⟩
    · have hexec : exec (.linkDown i) s = .next (s.linkDown i) := next_running _ hpor
      rw [hexec, State.linkDown_weighs hopen]
      exact ⟨rfl, hkept s _ rfl rfl rfl⟩
    · have hexec : exec (.holdExpiry i) s = .next (s.holdExpiry i) := next_running _ hpor
      rw [hexec, State.holdExpiry_eq hhold hdue]
      refine ⟨rfl, hkept { s with poolWait := s.poolWait.filter fun j => j ≠ i } _ rfl rfl ?_⟩
      split <;> rfl
    · have hexec : exec (.entryExpiry i e.tag) s = .next (s.entryExpiry i e.tag) := next_running _ hpor
      obtain ⟨hscorer, helapsed, hctl⟩ := State.frees_spares s i
        { ((s.slot i).tellsHost (.completion (fillCompletion (s.slot i).policy.fill e.tag e.fillDwords))) with
          entries := before ++ after } i
      rw [hexec, State.entryExpiry_eq hentries hbefore hdue,
        if_neg fun hlast => Slot.not_serving_of_fencing hlast.1 hopen]
      exact ⟨rfl, hscorer, helapsed, by rw [hctl, State.slot_setSlot_self]; rfl⟩
    · have hposted : r.posted = true := by simp [Request.posted, hkind]
      rw [exec_cardRequest_of_serving hwf hpor hclear hopen (by rw [hkind]; rfl), State.cardOpen_of_posted i hposted,
        State.throughChecker_of_failing (.inr ⟨d, hkind, rfl⟩) hfails]
      simp only [State.turnsErrant, if_pos hposted]
      refine ⟨rfl, ?_⟩
      split <;> exact hkept s { s.slot i with permit.errantReported := true } rfl rfl rfl
  obtain ⟨hexec, hscorer, helapsed, hstate⟩ := hweighed
  have hserving : (hit.slot i).serving := by
    rw [Slot.serving, hstate]
    exact hopen
  have hnote (k : ReportKind) (r : Option Reason) (v : Option Nat) : hit.note k i r v = s.note k i r v := by
    rw [State.note, State.note, helapsed]
  intro x score scored moves
  have hx : x.ctl.state = sl.ctl.state := hstate
  have hacts : hit.weighs i weight why =
      if hit.scorer.fence ≤ score then
        (scored.reporting (hit.note .hang i (some why) (some score))).fences i .score .recover
      else if x.ctl.state = .online ∧ hit.scorer.warn ≤ score then scored.serves i .suspect
      else if x.ctl.state = .suspect ∧ score < hit.scorer.warn / 2 then scored.serves i .online
      else scored := State.weighs_of_serving why hserving hweight
  rw [hnote, hscorer, hx] at hacts
  have hmoves {st : SlotState} (h : exec c s = .next (scored.serves i st)) : moves st := by
    rw [hit.serves_scored i st score] at h
    exact h
  rw [hacts] at hexec
  refine ⟨fun hfence => ?_, fun hbelow honline hwarn => ?_, fun hbelow hsuspect hcalm => ?_,
    fun ⟨hbelow, honline, hsuspect⟩ => ?_⟩
  · rw [hexec, if_pos hfence]
  · exact hmoves (by rw [hexec, if_neg hbelow.not_ge, if_pos ⟨honline, hwarn⟩])
  · have hnot : ¬ (sl.ctl.state = .online ∧ s.scorer.warn ≤ score) := fun h => by simp [hsuspect] at h
    exact hmoves (by rw [hexec, if_neg hbelow.not_ge, if_neg hnot, if_pos ⟨hsuspect, hcalm⟩])
  · rw [hexec, if_neg hbelow.not_ge, if_neg fun h => (honline h.1).not_ge h.2, if_neg fun h => (hsuspect h.1).not_gt h.2]

end Sys2Proof.Machine
end

section
/-! Fence triggers, the end of the drain, the decision timer, and the replay (R15, R37, R56, R63, R66, R78 to R81, R124 to R131). -/

namespace Sys2Proof.Machine

/-! ### Fence triggers -/

theorem State.fence_of_closed {s : State} {i : SlotId} (r : Reason) (d : Disposition) (h : ¬ (s.slot i).serving) :
    s.fence i r d = s := if_neg (by simp [Slot.inService_of_not_serving h])

theorem State.graceExpiry_eq {s : State} {i : SlotId} (hopen : (s.slot i).serving)
    (hdue : (s.slot i).ctl.graceTimer = some s.now) : s.graceExpiry i = s.fences i .link .recover := by
  rw [State.graceExpiry, State.when, if_pos (by rw [Slot.inService_of_serving hopen, State.due_iff.2 hdue]; rfl),
    State.fence_eq hopen]

/-- R56, R173: the level is kept, and a change with the enable on is a fence trigger. -/
theorem State.calertAssertion_eq (s : State) (i : SlotId) :
    s.calertAssertion i =
      if (s.slot i).pins.calert = false ∧ (s.slot i).policy.calertEnable = true then
        (s.setSlot i { s.slot i with pins.calert := true }).fence i .calert .recover
      else s.setSlot i { s.slot i with pins.calert := true } := by
  unfold State.calertAssertion State.when
  by_cases hlevel : (s.slot i).pins.calert = true
  · have hkept : ({ s.slot i with pins.calert := true } : Slot) = s.slot i := by rw [← hlevel]
    rw [hkept, State.setSlot_slot]
    simp [hlevel]
  · rw [Bool.not_eq_true] at hlevel
    simp only [hlevel, Bool.not_false, if_true, true_and, State.modSlot, State.slot_setSlot_self]

/-- Settles O36: the grace timer's end and a CALERT change are fence triggers; what is none changes the level only. -/
theorem linkGraceAndCalertFence : Obligations.LinkGraceAndCalertFence := by
  intro s i sl level
  refine ⟨fun hpor hopen => ⟨fun hdue => ?_, fun hlevel henable => ?_⟩, fun hquiet => ?_, rfl⟩
  · have hexec : exec (.linkGraceExpiry i) s = .next (s.graceExpiry i) := next_running _ hpor
    rw [hexec, State.graceExpiry_eq hopen hdue]
  · have hexec : exec (.calertAssertion i) s = .next (s.calertAssertion i) :=
      congrArg _ (if_neg (Bool.eq_false_iff.1 hpor))
    have hserves : ((level true).slot i).serving := by
      show ((s.setSlot i _).slot i).serving
      rw [State.slot_setSlot_self]
      exact hopen
    rw [hexec, State.calertAssertion_eq, if_pos ⟨hlevel, henable⟩]
    exact congrArg _ (State.fence_eq hserves)
  · show .next (s.calertPin i) = (.next (level true) : Host.Outcome State Fault Refusal)
    unfold State.calertPin
    split
    next => rfl
    next hpor =>
      rw [State.calertAssertion_eq]
      split
      next htrigger =>
        have hclosed : ¬ (s.slot i).serving := by
          obtain h | h | h | h := hquiet
          · exact absurd h hpor
          · exact h
          · exact absurd htrigger.2 (by simp [show (s.slot i).policy.calertEnable = false from h])
          · exact absurd htrigger.1 (by simp [show (s.slot i).pins.calert = true from h])
        exact congrArg _ (State.fence_of_closed _ _ (by rw [State.slot_setSlot_self]; exact hclosed))
      next => rfl

/-! ### The end of the drain, and the decision -/

/-- No time passes in a sweep. -/
theorem State.elapsed_sweeps (s : State) (i : SlotId) : (s.sweeps i).elapsed = s.elapsed := by
  unfold State.sweeps
  generalize (s.slot i).entries = l
  induction l generalizing s with
  | nil => rfl
  | cons e rest ih => exact (ih _).trans (State.frees_spares s i _ i).2.1

theorem State.endDrain_eq {s : State} {i : SlotId} (h : ¬ (s.slot i).serving) :
    s.endDrain i = (s.sweeps i).leavesFencing i := by
  rw [State.endDrain, State.sweep_eq h, State.leaveFencing_eq]

theorem State.drainExpiry_eq {s : State} {i : SlotId} (hstate : (s.slot i).ctl.state = .fencing)
    (hdue : (s.slot i).ctl.drainTimer = some s.now) : s.drainExpiry i = (s.sweeps i).leavesFencing i := by
  rw [State.drainExpiry, State.when, if_pos (by simp [hstate, State.due_iff.2 hdue]),
    State.endDrain_eq (Slot.not_serving_of_fencing hstate)]

/-- Settles O38: the sweep, and the way out by the disposition and the policy. -/
theorem drainExpirySweepsAndLeaves : Obligations.DrainExpirySweepsAndLeaves := by
  intro s i hpor hstate hdue sl answers answered swept isolated
  have hclosed : ¬ (s.slot i).serving := Slot.not_serving_of_fencing hstate
  have hswept : swept.slot i = answered := State.slot_sweeps hclosed
  have hexec : exec (.drainExpiry i) s = .next (swept.leavesFencing i) := by
    rw [← State.drainExpiry_eq hstate hdue]
    exact next_running _ hpor
  have hctl : (swept.slot i).ctl = sl.ctl := by rw [hswept]
  have hpolicy : (swept.slot i).policy = sl.policy := by rw [hswept]
  have hnow : swept.now = s.now := congrArg (BitVec.ofNat 32) (State.elapsed_sweeps s i)
  refine ⟨hswept, fun hfree => ?_, fun hoff => ?_, fun hrecover => ?_⟩
  · obtain hunclaimed | hempty := hfree
    · exact State.sweeps_unclaimed hclosed hunclaimed
    · have hempty : (s.slot i).entries = [] := hempty
      have hsame : answered = s.slot i := by
        show ({ sl with entries := [], chan.hostOut := _ ++ List.map _ (s.slot i).entries } : Slot) = s.slot i
        rw [hempty, List.map_nil, List.append_nil, ← hempty]
      rw [hsame, State.setSlot_slot]
      show (s.slot i).entries.foldl _ s = s
      rw [hempty]
      rfl
  · rw [hexec, State.leavesFencing, hctl, if_pos hoff]
  · have hnot : ¬ sl.ctl.disposition = some .off := by simp [hrecover]
    rw [hexec, State.leavesFencing, hctl, if_neg hnot, State.goesIsolated, hctl, hpolicy, hnow]
    refine ⟨fun h => ?_, fun h => ?_, fun h => ?_⟩ <;> rw [h]

/-- Settles O39: the lapse action is QUARANTINED or a recovery. -/
theorem decisionExpiryTakesTheLapseAction : Obligations.DecisionExpiryTakesTheLapseAction := by
  intro s i hpor hstate hdue sl
  have hexec : exec (.decisionExpiry i) s = .next (s.decisionExpiry i) := next_running _ hpor
  have hacts : ((s.slot i).ctl.state = .isolated && (s.slot i).ctl.decisionTimer = .running s.now : Bool) = true := by
    simp [hstate, hdue]
  have hrecovers : s.firstAttempt i = s.recovers i (s.slot i).policy.firstKind :=
    State.startRecovery_eq _ (by simp [hstate])
  rw [hexec, State.decisionExpiry, State.when, if_pos hacts]
  refine ⟨fun hlapse => ?_, fun hlapse => ?_⟩
  · simp only [show (s.slot i).policy.lapse = .quarantine from hlapse, State.enterQuarantined_eq]
  · simp only [show (s.slot i).policy.lapse = .recover from hlapse, hrecovers]
    rfl

/-! ### The replay -/

/-- R125: the slot as a replay write of the entry leaves it. -/
def Slot.replays (sl : Slot) (now : Micros) (e : ImgEntry) : Slot :=
  { (sl.tellsCard (.request .part { tag := sl.store.nextTag, kind := .cfgWrite e.offset e.mask e.value })) with
    store.outstanding := some { tag := sl.store.nextTag, deadline := now + BitVec.ofNat 32 sl.policy.slotTimeout }
    store.nextTag := sl.store.nextTag + 1 }

theorem State.issueWrite_eq (s : State) (i : SlotId) (e : ImgEntry) :
    s.issueWrite i e = s.setSlot i ((s.slot i).replays s.now e) := by
  rw [State.issueWrite, State.toCard_eq_setSlot, State.modSlot, State.slot_setSlot_self, State.setSlot_setSlot]
  rfl

theorem State.replayDone_eq (s : State) (i : SlotId) :
    s.replayDone i = (s.setSlot i { s.slot i with store := (s.slot i).store.stopped }).goesOnline i := by
  rw [State.replayDone, State.enterOnline_eq]
  rfl

/-- R125: the entry at the cursor is written next. -/
theorem State.replayNext_of_entry (s : State) (i : SlotId) {x : Slot} {n : Nat} {e : ImgEntry}
    (hcursor : x.store.cursor = some n) (he : x.store.sequence[n]? = some e) :
    (s.setSlot i x).replayNext i = s.setSlot i (x.replays s.now e) := by
  simp only [State.replayNext, State.slot_setSlot_self, hcursor, Option.bind_some, he, State.issueWrite_eq,
    State.setSlot_setSlot, State.now_setSlot]

/-- R129: with nothing there the replay is done. -/
theorem State.replayNext_of_end (s : State) (i : SlotId) {x : Slot} {n : Nat} (hcursor : x.store.cursor = some n)
    (hend : x.store.sequence.length ≤ n) :
    (s.setSlot i x).replayNext i = (s.setSlot i { x with store := x.store.stopped }).goesOnline i := by
  simp only [State.replayNext, State.slot_setSlot_self, hcursor, Option.bind_some, List.getElem?_eq_none hend,
    State.replayDone_eq, State.setSlot_setSlot]

theorem State.resendExpiry_eq {s : State} {i : SlotId} (hstate : (s.slot i).ctl.state = .restoring)
    (hdue : (s.slot i).store.resendTimer = some s.now) :
    s.resendExpiry i = (s.setSlot i { s.slot i with store.resendTimer := none }).replayNext i :=
  if_pos (by simp [hstate, State.due_iff.2 hdue])

theorem State.cardCompletion_part {s : State} {i : SlotId} (c : Completion) (hup : (s.slot i).chan.linkUp = true) :
    s.cardCompletion i .part c = s.replayCompletion i c := if_pos hup

/-- R126: the completion that the outstanding write awaits is taken by its status. -/
theorem State.replayCompletion_of_awaited {s : State} {i : SlotId} {o : Outstanding} {c : Completion}
    (hstate : (s.slot i).ctl.state = .restoring) (ho : (s.slot i).store.outstanding = some o) (htag : o.tag = c.tag) :
    (c.status = .success → c.data = [] → c.final = true → s.replayCompletion i c = (s.setSlot i
      { s.slot i with
        store.outstanding := none
        store.replayed := (s.slot i).store.replayed + 1
        store.cursor := (s.slot i).store.cursor.map fun n => n + 1 }).replayNext i)
    ∧ (c.status = .retry → s.replayCompletion i c = s.setSlot i
        { s.slot i with store.outstanding := none, store.resendTimer := some (s.now + 1000#32) })
    ∧ (c.status = .unsupported ∨ c.status = .abort → s.replayCompletion i c = s.failsAttempt i .restoreFail) := by
  have hawaited : ((s.slot i).ctl.state = .restoring && ((s.slot i).store.outstanding.any fun o => o.tag == c.tag)) =
      true := by simp [hstate, ho, htag]
  unfold State.replayCompletion
  simp only [if_pos hawaited]
  refine ⟨fun hstatus hdata hfinal => ?_, fun hstatus => ?_, fun hstatus => ?_⟩
  · simp only [hstatus, hdata, hfinal, List.isEmpty_nil, Bool.and_self, if_true, State.modSlot]
  · simp only [hstatus]
    rfl
  · obtain hstatus | hstatus := hstatus <;> simp only [hstatus, State.attemptFailure_eq]

theorem exec_replayCompletion {s : State} {i : SlotId} {c : Completion} (hwf : c.wf = true) (hpor : s.porHeld = false)
    (hup : (s.slot i).chan.linkUp = true) : exec (.cardCompletion i .part c) s = .next (s.replayCompletion i c) := by
  rw [exec_cardCompletion i .part hwf hpor, State.cardCompletion_part c hup]

/-- Settles O26: the confirmation, the RETRY and the re-send. -/
theorem replayWritesFollowOneAnother : Obligations.ReplayWritesFollowOneAnother := by
  intro s i n e hpor hstate sl writes
  refine ⟨fun o hup ho hcursor he => ?_, fun o hup ho => ?_, fun hdue hcursor he => ?_⟩
  · have hnext : (s.slot i).store.cursor.map (fun n => n + 1) = some (n + 1) := congrArg (Option.map _) hcursor
    rw [exec_replayCompletion rfl hpor hup, (State.replayCompletion_of_awaited hstate ho rfl).1 rfl rfl rfl, hnext]
    exact congrArg _ (State.replayNext_of_entry s i rfl he)
  · rw [exec_replayCompletion rfl hpor hup, (State.replayCompletion_of_awaited hstate ho rfl).2.1 rfl]
  · have hexec : exec (.resendTimerExpiry i) s = .next (s.resendExpiry i) := next_running _ hpor
    rw [hexec, State.resendExpiry_eq hstate hdue]
    exact congrArg _ (State.replayNext_of_entry s i hcursor he)

/-- Settles O27: with nothing left to write the confirmation and the re-send both end the replay. -/
theorem lastReplayWriteRestores : Obligations.LastReplayWriteRestores := by
  intro s i n hpor hstate sl hcursor
  refine ⟨fun hend hdue => ?_, fun hend hup o ho => ?_⟩
  · have hexec : exec (.resendTimerExpiry i) s = .next (s.resendExpiry i) := next_running _ hpor
    rw [hexec, State.resendExpiry_eq hstate hdue]
    exact congrArg _ (State.replayNext_of_end s i hcursor hend)
  · have hnext : (s.slot i).store.cursor.map (fun n => n + 1) = some (n + 1) := congrArg (Option.map _) hcursor
    rw [exec_replayCompletion rfl hpor hup, (State.replayCompletion_of_awaited hstate ho rfl).1 rfl rfl rfl, hnext]
    exact congrArg _ (State.replayNext_of_end s i rfl hend)

end Sys2Proof.Machine
end

section
/-! The stages of an attempt, its failures, and the end of DISCHARGING (R86, R89, R93, R94, R97, R99 to R104, R124, R125, R129, R163). -/

namespace Sys2Proof.Machine

/-! ### No time passes in a grant check -/

theorem State.elapsed_goesQuarantined (s : State) (i : SlotId) (r : Reason) :
    (s.goesQuarantined i r).elapsed = s.elapsed := (State.absorbsHold_spares _ i).elapsed

theorem State.elapsed_budgetFailure (s : State) (i : SlotId) : (s.budgetFailure i).elapsed = s.elapsed := by
  rw [State.budgetFailure_eq]
  exact State.elapsed_goesQuarantined _ i .budget

theorem State.elapsed_enterRamping (s : State) (i : SlotId) : (s.enterRamping i).elapsed = s.elapsed := by
  rw [State.enterRamping, State.drive_eq_moved]
  rfl

theorem State.elapsed_grantLoop (l : List Place) : ∀ s : State, (s.grantLoop l).elapsed = s.elapsed := by
  induction l with
  | nil => exact fun s => rfl
  | cons p rest ih =>
    intro s
    unfold State.grantLoop
    split
    · exact (ih _).trans (State.elapsed_budgetFailure _ p.slot)
    · split
      · exact (ih _).trans (State.elapsed_enterRamping _ p.slot)
      · rfl

theorem State.elapsed_grantCheck (s : State) : s.grantCheck.elapsed = s.elapsed := s.elapsed_grantLoop _

/-! ### The rails -/

theorem inWindow_iff (r : Option RailResult) (step low high : Nat) :
    inWindow r step low high = true ↔ ∃ v, r = some v ∧ v.mark = true ∧ low ≤ step * v.code ∧ step * v.code ≤ high := by
  cases r <;> simp [inWindow, and_assoc]

/-- R99: both rails carry their marks and stand in their windows. -/
theorem Rails.good_iff (r : Rails) :
    r.good = true ↔ ∃ v w, r.v12 = some v ∧ v.mark = true ∧ 11000 ≤ 4 * v.code ∧ 4 * v.code ≤ 13000
      ∧ r.v33 = some w ∧ w.mark = true ∧ 3000 ≤ w.code ∧ w.code ≤ 3600 := by
  rw [Rails.good, Bool.and_eq_true, inWindow_iff, inWindow_iff]
  constructor
  · rintro ⟨⟨v, h₁, h₂, h₃, h₄⟩, w, h₅, h₆, h₇, h₈⟩
    exact ⟨v, w, h₁, h₂, h₃, h₄, h₅, h₆, by omega, by omega⟩
  · rintro ⟨v, w, h₁, h₂, h₃, h₄, h₅, h₆, h₇, h₈⟩
    exact ⟨⟨v, h₁, h₂, h₃, h₄⟩, w, h₅, h₆, by omega, by omega⟩

/-! ### Failures of an attempt -/

theorem State.linkDown_of_restoring {s : State} {i : SlotId} (hstate : (s.slot i).ctl.state = .restoring) :
    s.linkDown i =
      (s.setSlot i { s.slot i with chan.linkUp := false, chan.cardWaiting := [] }).failsAttempt i .link := by
  have hservice : ¬ (s.slot i).inService = true := by simp [Slot.inService, hstate, SlotState.isOpen]
  unfold State.linkDown
  dsimp only
  rw [State.slot_modSlot_self, ← State.attemptFailure_eq]
  exact (if_neg hservice).trans (if_pos hstate)

theorem State.trainingExpiry_eq {s : State} {i : SlotId} (hstate : (s.slot i).ctl.state = .training)
    (hdue : (s.slot i).ctl.trainingTimer = some s.now) : s.trainingExpiry i = s.failsAttempt i .trainingTimeout := by
  rw [State.trainingExpiry, State.when, if_pos (by simp [hstate, State.due_iff.2 hdue]), State.attemptFailure_eq]

theorem State.restoreExpiry_eq {s : State} {i : SlotId} (hstate : (s.slot i).ctl.state = .restoring)
    (hdue : (s.slot i).ctl.restoreTimer = some s.now) : s.restoreExpiry i = s.failsAttempt i .restoreTimeout := by
  rw [State.restoreExpiry, State.when, if_pos (by simp [hstate, State.due_iff.2 hdue]), State.attemptFailure_eq]

theorem State.replayDeadline_eq {s : State} {i : SlotId} {tag : Tag} (hstate : (s.slot i).ctl.state = .restoring)
    (ho : (s.slot i).store.outstanding = some { tag := tag, deadline := s.now }) :
    s.replayDeadline i = s.failsAttempt i .restoreFail := by
  have hdue : s.due (s.slot i).store.writeDeadline = true := State.due_iff.2 (congrArg _ ho)
  rw [State.replayDeadline, State.when, if_pos (by simp [hstate, hdue]), State.attemptFailure_eq]

theorem State.stageLeft_of_training {s : State} {i : SlotId} (h : (s.slot i).ctl.state = .training) :
    s.stageLeft i = s := by
  simp only [State.stageLeft, h]

theorem State.stageLeft_of_restoring {s : State} {i : SlotId} (h : (s.slot i).ctl.state = .restoring) :
    s.stageLeft i = s.setSlot i { s.slot i with store := (s.slot i).store.stopped } := by
  simp only [State.stageLeft, h]

theorem State.stageLeft_of_ramping {s : State} {i : SlotId} (h : (s.slot i).ctl.state = .ramping) :
    s.stageLeft i =
      ({ s with arbiter.granted := s.arbiter.granted.filter fun p => p.slot ≠ i } : State).grantCheck := by
  simp only [State.stageLeft, h]

theorem State.rampExpiry_eq {s : State} {i : SlotId} (hstate : (s.slot i).ctl.state = .ramping)
    (hdue : (s.slot i).ctl.rampTimer = some s.now) :
    s.rampExpiry i =
      if (s.slot i).rails.good = true then
        (let left := ({ s with arbiter.granted := s.arbiter.granted.filter fun p => p.slot ≠ i } : State).grantCheck
        left.goesResetting i (left.slot i).ctl)
      else s.failsAttempt i .rail := by
  rw [State.rampExpiry, State.when, if_pos (by simp [hstate, State.due_iff.2 hdue]), State.enterResetting_eq,
    State.attemptFailure_eq]
  rfl

/-- Settles O42: each of the six events is a failure of the attempt in its stage. -/
theorem attemptFailureRetriesOrQuarantines : Obligations.AttemptFailureRetriesOrQuarantines := by
  intro s i c why left hpor sl stopped hevent ctl told
  have hfails : ∃ u : State, exec c s = .next (u.failsAttempt i why) ∧ u.stageLeft i = left ∧ left.elapsed = s.elapsed := by
    obtain ⟨rfl, rfl, hstate, hdue, rfl⟩ | ⟨rfl, rfl, hstate, hdue, rfl⟩ | ⟨rfl, rfl, hstate, ⟨tag, ho⟩, rfl⟩
      | ⟨⟨o, status, rfl, ho, hstatus⟩, rfl, hstate, hup, rfl⟩ | ⟨rfl, rfl, hstate, rfl⟩
      | ⟨rfl, rfl, hstate, hdue, hrails, rfl⟩ := hevent
    · exact ⟨left, (next_running _ hpor).trans (congrArg _ (State.trainingExpiry_eq hstate hdue)),
        State.stageLeft_of_training hstate, rfl⟩
    · exact ⟨s, (next_running _ hpor).trans (congrArg _ (State.restoreExpiry_eq hstate hdue)),
        State.stageLeft_of_restoring hstate, rfl⟩
    · exact ⟨s, (next_running _ hpor).trans (congrArg _ (State.replayDeadline_eq hstate ho)),
        State.stageLeft_of_restoring hstate, rfl⟩
    · refine ⟨s, ?_, State.stageLeft_of_restoring hstate, rfl⟩
      have hwf : (Completion.bare o.tag status).wf = true := by simp [Completion.wf, Completion.bare]
      rw [exec_replayCompletion hwf hpor hup, (State.replayCompletion_of_awaited hstate ho rfl).2.2 hstatus]
    · refine ⟨_, (next_running _ hpor).trans (congrArg _ (State.linkDown_of_restoring hstate)), ?_, rfl⟩
      rw [State.stageLeft_of_restoring (by rw [State.slot_setSlot_self]; exact hstate), State.slot_setSlot_self,
        State.setSlot_setSlot]
      rfl
    · refine ⟨s, (next_running _ hpor).trans (congrArg _ ?_), State.stageLeft_of_ramping hstate,
        State.elapsed_grantCheck _⟩
      rw [State.rampExpiry_eq hstate hdue, if_neg fun hgood => hrails ((Rails.good_iff _).1 hgood)]
  obtain ⟨u, hexec, hleft, helapsed⟩ := hfails
  have htold : left.reporting (left.note .attempt i (some why) (some ctl.attempts)) = told := by
    rw [State.note, helapsed]
    rfl
  have hacts : u.failsAttempt i why =
      if ctl.attempts < (left.slot i).policy.maxAttempts then
        told.discharges i { ctl with reason := some why, attempts := ctl.attempts + 1, resetKind := some .cold } .bringUp
      else told.goesQuarantined i .exhausted := by
    rw [← htold, State.failsAttempt, hleft]
  rw [hexec, hacts]
  exact ⟨fun hmore => by rw [if_pos hmore], fun hnone => by rw [if_neg hnone.not_gt]⟩

/-! ### The stages -/

/-- A move that leaves the PWREN level alone changes the slot only, its blink with it. -/
theorem State.moved_still {s : State} {i : SlotId} {x : Slot} (hp : (s.slot i).pwren = x.pwren) :
    s.moved i x = s.setSlot i { x with pins := x.pins.after (s.slot i).blinks x.blinks s.now } := by
  have hturned : ((s.slot i).pwren != x.pwren) = false := by rw [hp, bne_self_eq_false]
  have hcut : ((s.slot i).pwren && !x.pwren) = false := by rw [hp, Bool.and_not_self]
  simp only [State.moved, hturned, hcut, Rails.after_false, Monitor.after_false]
  rfl

theorem State.enterTraining_eq (s : State) (i : SlotId) :
    s.enterTraining i = s.moved i
      { s.slot i with
        chan.gateOpen := false
        ctl :=
          { (s.slot i).ctl.into .training with
            trainingTimer := some (s.now + BitVec.ofNat 32 (1000 * (s.slot i).policy.training)) } } := by
  rw [State.enterTraining, State.drive_eq_moved, Slot.moveTo_eq]
  rfl

/-- R124: the replay order, as the statements say it. -/
theorem ImageStore.replayOrder_eq (st : ImageStore) :
    st.replayOrder = (st.entries.filter fun e => e.offset ≠ 1) ++ (st.entries.filter fun e => e.offset = 1) := by
  simp only [ImageStore.replayOrder, bne, beq_eq_decide, decide_not]

/-- R103, R124: the slot as it enters RESTORING. -/
def Slot.restores (sl : Slot) (now : Micros) : Slot :=
  { sl with
    chan.gateOpen := false
    ctl := { sl.ctl.into .restoring with restoreTimer := some (now + 1000000#32) }
    store := { sl.store with sequence := sl.store.replayOrder, cursor := some 0, replayed := 0 } }

theorem State.enterRestoring_eq (s : State) (i : SlotId) :
    s.enterRestoring i = (s.moved i ((s.slot i).restores s.now)).replayNext i := by
  rw [State.enterRestoring, State.drive_eq_moved, Slot.moveTo_eq]
  rfl

/-- R125: the first write. -/
theorem State.enterRestoring_of_entry {s : State} {i : SlotId} {e : ImgEntry} {rest : List ImgEntry}
    (horder : (s.slot i).store.replayOrder = e :: rest) :
    s.enterRestoring i = s.moved i (((s.slot i).restores s.now).replays s.now e) := by
  have hstore := s.moved_store i ((s.slot i).restores s.now)
  have hsequence : ((s.moved i ((s.slot i).restores s.now)).slot i).store.sequence[0]? = some e := by
    rw [hstore]
    exact congrArg (·[0]?) horder
  rw [State.enterRestoring_eq, ← State.setSlot_slot (s.moved i _) i,
    State.replayNext_of_entry _ i (by rw [hstore]; rfl) hsequence]
  exact s.modSlot_moved i _ _ (fun sl => sl.replays s.now e) (Slot.pwren_congr rfl rfl rfl)
    (by rw [State.moved_slot, State.moved_slot]; rfl)

/-- R104: what an entry to ONLINE takes from the slot. -/
theorem State.goesOnline_congr {s : State} {i : SlotId} {x y : Slot}
    (hmoved : (s.setSlot i x).moved i { x with chan.gateOpen := true, ctl := x.ctl.into .online } =
      (s.setSlot i y).moved i { y with chan.gateOpen := true, ctl := y.ctl.into .online })
    (hctl : x.ctl.into .online = y.ctl.into .online) (hstore : x.store = y.store) (hpolicy : x.policy = y.policy) :
    (s.setSlot i x).goesOnline i = (s.setSlot i y).goesOnline i := by
  have horigin : x.ctl.origin = y.ctl.origin := (congrArg Controller.origin hctl :)
  have hreason : x.ctl.reason = y.ctl.reason := (congrArg Controller.reason hctl :)
  have hattempts : x.ctl.attempts = y.ctl.attempts := (congrArg Controller.attempts hctl :)
  have hlast : x.ctl.lastReported = y.ctl.lastReported := (congrArg Controller.lastReported hctl :)
  unfold State.goesOnline State.stateNote State.note
  dsimp only at hmoved ⊢
  rw [State.slot_setSlot_self, State.slot_setSlot_self, hmoved, horigin, hreason, hattempts, hlast, hstore, hpolicy]
  rfl

theorem PinUnit.after_still (p : PinUnit) (a b : Bool) (now : Micros) : (p.after a a now).after a b now = p.after a b now := by
  cases a <;> cases b <;> rfl

theorem PinUnit.after_keeps (p : PinUnit) (a b : Bool) (now : Micros) :
    (p.after a b now).mode = p.mode ∧ (p.after a b now).held = p.held ∧ (p.after a b now).boardPwren = p.boardPwren := by
  cases a <;> cases b <;> exact ⟨rfl, rfl, rfl⟩

theorem Slot.pwren_after (x : Slot) (a b : Bool) (now : Micros) :
    ({ x with pins := x.pins.after a b now } : Slot).pwren = x.pwren := by
  obtain ⟨hmode, hheld, hboard⟩ := x.pins.after_keeps a b now
  simp only [Slot.pwren, Slot.drive, hmode, hheld, hboard]

theorem Slot.blinks_after (x : Slot) (a b : Bool) (now : Micros) :
    ({ x with pins := x.pins.after a b now } : Slot).blinks = x.blinks := by
  obtain ⟨hmode, hheld, hboard⟩ := x.pins.after_keeps a b now
  exact Slot.blinks_congr hmode hheld rfl rfl

/-- R170: a blink that goes on, or stays off, is nothing to the entry to ONLINE. -/
theorem State.goesOnline_of_still (s : State) (i : SlotId) (x : Slot) :
    (s.setSlot i { x with pins := x.pins.after x.blinks x.blinks s.now }).goesOnline i = (s.setSlot i x).goesOnline i := by
  refine State.goesOnline_congr ?_ rfl rfl rfl
  have hpwren := ({ x with chan.gateOpen := true, ctl := x.ctl.into .online } : Slot).pwren_after x.blinks x.blinks s.now
  have hblinks := ({ x with chan.gateOpen := true, ctl := x.ctl.into .online } : Slot).blinks_after x.blinks x.blinks s.now
  simp only [State.moved, State.slot_setSlot_self, State.setSlot_setSlot, Slot.pwren_after, Slot.blinks_after, State.now_setSlot]
  rw [hpwren, hblinks, PinUnit.after_still]
  rfl

/-- R125, R129: with an empty image the replay is done at once. -/
theorem State.enterRestoring_of_empty {s : State} {i : SlotId} (hstate : (s.slot i).ctl.state = .training)
    (hempty : (s.slot i).store.entries = []) :
    s.enterRestoring i = (s.setSlot i
      { s.slot i with
        ctl := (s.slot i).ctl.into .restoring
        store := { (s.slot i).store.stopped with replayed := 0 } }).goesOnline i := by
  have hpwren : (s.slot i).pwren = ((s.slot i).restores s.now).pwren := by
    simp only [Slot.pwren, Slot.drive, hstate]
    rfl
  have hblinks : (s.slot i).blinks = ((s.slot i).restores s.now).blinks := by
    simp only [Slot.blinks, Slot.drive, hstate]
    rfl
  have hend (p : PinUnit) : ({ (s.slot i).restores s.now with pins := p } : Slot).store.sequence.length ≤ 0 := by
    simp [Slot.restores, ImageStore.replayOrder, hempty]
  rw [State.enterRestoring_eq, State.moved_still hpwren, hblinks, State.replayNext_of_end s i rfl (hend _)]
  refine (s.goesOnline_of_still i
    { (s.slot i).restores s.now with store := ((s.slot i).restores s.now).store.stopped }).trans ?_
  exact State.goesOnline_congr (s.moved_of_setSlot i _ (Slot.pwren_congr rfl rfl rfl) (Slot.blinks_congr rfl rfl rfl rfl))
    rfl rfl rfl

/-- Settles O41: the ramp's end, the pulse's end, and the link's rise with and without an image. -/
theorem attemptGoesThroughItsStages : Obligations.AttemptGoesThroughItsStages := by
  intro s i hpor sl
  have hup : exec (.linkUp i) s = .next (s.linkUp i) := next_running _ hpor
  have hlinked (hstate : sl.ctl.state = .training) :
      s.linkUp i = (s.setSlot i { sl with chan.linkUp := true }).enterRestoring i := by
    rw [State.linkUp_eq, if_neg (by simp [Slot.serving, show (s.slot i).ctl.state = .training from hstate]), if_pos hstate]
  refine ⟨fun v w hstate hdue hv hmark hlow hhigh hw hmark' hlow' hhigh' => ?_, fun hstate hdue => ?_,
    fun e rest hstate horder => ?_, fun hstate hempty => ?_⟩
  · intro left
    have hgood : (s.slot i).rails.good = true :=
      (Rails.good_iff _).2 ⟨v, w, hv, hmark, hlow, hhigh, hw, hmark', hlow', hhigh'⟩
    have hexec : exec (.rampExpiry i) s = .next (s.rampExpiry i) := next_running _ hpor
    rw [hexec, State.rampExpiry_eq hstate hdue, if_pos hgood]
  · have hexec : exec (.resetPulseExpiry i) s = .next (s.pulseExpiry i) := next_running _ hpor
    have hstate : (s.slot i).ctl.state = .resetting := hstate
    have hdue : (s.slot i).ctl.pulseTimer = .running s.now := hdue
    rw [hexec, State.pulseExpiry, State.when, if_pos (by simp [hstate, hdue]), State.enterTraining_eq]
  · have hsequence : ((s.setSlot i { sl with chan.linkUp := true }).slot i).store.replayOrder = e :: rest := by
      rw [State.slot_setSlot_self, ImageStore.replayOrder_eq]
      exact horder
    rw [hup, hlinked hstate, State.enterRestoring_of_entry hsequence, State.slot_setSlot_self]
    rw [State.slot_setSlot_self] at hsequence
    have hseq' : sl.store.replayOrder = e :: rest := hsequence
    simp only [Slot.restores, hseq']
    rfl
  · rw [hup, hlinked hstate, State.enterRestoring_of_empty (by rw [State.slot_setSlot_self]; exact hstate)
      (by rw [State.slot_setSlot_self]; exact hempty), State.slot_setSlot_self, State.setSlot_setSlot]

/-! ### The scan, and the end of DISCHARGING -/

theorem Monitor.slot_place {m : Monitor} {i : SlotId} {place : Nat} (h : m.channel.val = 3 * i.val + place)
    (hplace : place < 3) : m.slot = i ∧ m.channel.val % 3 = place := by
  refine ⟨(m.slot_eq_iff i).2 ?_, ?_⟩ <;> omega

/-- R163: the next conversion begins, and the result is discarded or kept. -/
theorem State.conversionEnd_eq {s : State} {i : SlotId} {place : Nat} (q : Quantity) (hdue : s.monitor.convEnd = some s.now)
    (hchannel : s.monitor.channel.val = 3 * i.val + place) (hplace : place < 3) :
    s.conversionEnd q =
      if s.monitor.discard = true then s.nextConversion
      else s.nextConversion.keepResult i place
        { code := railCode q (railStep place), mark := true, afterOff := s.monitor.afterOff } := by
  obtain ⟨hslot, hmod⟩ := Monitor.slot_place hchannel hplace
  rw [State.conversionEnd, State.when, if_pos (State.due_iff.2 hdue)]
  dsimp only
  rw [hslot, hmod]

/-- R93, R94: the check of a slot that is, or is not, in DISCHARGING. -/
theorem State.dischargeCheck_setSlot (s : State) (i : SlotId) (x : Slot) :
    (s.setSlot i x).dischargeCheck i =
      if x.ctl.state = .discharging ∧ x.rested = true then (s.setSlot i x).completesDischarge i else s.setSlot i x := by
  by_cases hstate : x.ctl.state = .discharging
  · rw [State.dischargeCheck_eq (by rw [State.slot_setSlot_self]; exact hstate), State.slot_setSlot_self]
    simp only [hstate, true_and]
  · rw [State.dischargeCheck_elsewhere (by rw [State.slot_setSlot_self]; exact hstate), if_neg fun h => hstate h.1]

theorem State.minOffExpiry_eq {s : State} {i : SlotId} (hdue : (s.slot i).ctl.minOffTimer = some s.now) :
    s.minOffExpiry i =
      (s.setSlot i { s.slot i with ctl.minOffTimer := none, ctl.minOffElapsed := true }).dischargeCheck i :=
  if_pos (State.due_iff.2 hdue)

/-- R90, R95: the discharge time's end, in an attempt after an ATTEMPT report. -/
theorem State.dischargeExpiry_eq {s : State} {i : SlotId} (hstate : (s.slot i).ctl.state = .discharging)
    (hdue : (s.slot i).ctl.dischargeTimer = some s.now) :
    s.dischargeExpiry i =
      (if (s.slot i).ctl.target = some .bringUp then
        s.reporting (s.note .attempt i (some .dischargeTimeout) (some (s.slot i).ctl.attempts))
      else s).goesQuarantined i .dischargeTimeout := by
  rw [State.dischargeExpiry, State.when, if_pos (by simp [hstate, State.due_iff.2 hdue])]
  dsimp only
  rw [State.enterQuarantined_eq, State.report_eq]
  rfl

/-- Settles O40: the three events that a discharge awaits lead to its check, and its time's end to QUARANTINED. -/
theorem dischargingEnds : Obligations.DischargingEnds := by
  constructor
  · intro s t i c hpor sl next kept hevent
    have hchecked : ∃ (u : State) (x : Slot), t = u.setSlot i x ∧ x.ctl.state = (s.slot i).ctl.state
        ∧ x.ctl.target = (s.slot i).ctl.target ∧ x.ctl.present = (s.slot i).ctl.present
        ∧ exec c s = .next ((u.setSlot i x).dischargeCheck i) := by
      obtain ⟨rfl, hdue, rfl⟩ | ⟨hdue, hkept, ⟨q, rfl, hchannel, rfl⟩ | ⟨q, rfl, hchannel, rfl⟩⟩ := hevent
      · exact ⟨s, _, rfl, rfl, rfl, rfl, (next_running _ hpor).trans (congrArg _ (State.minOffExpiry_eq hdue))⟩
      · refine ⟨next, _, rfl, rfl, rfl, rfl, (next_running _ hpor).trans (congrArg _ ?_)⟩
        rw [State.conversionEnd_eq (place := 0) q hdue hchannel (by decide), if_neg (by simp [hkept])]
        rfl
      · refine ⟨next, _, rfl, rfl, rfl, rfl, (next_running _ hpor).trans (congrArg _ ?_)⟩
        rw [State.conversionEnd_eq (place := 1) q hdue hchannel (by decide), if_neg (by simp [hkept])]
        rfl
    obtain ⟨u, x, rfl, hstate, htarget, hpresent, hexec⟩ := hchecked
    rw [hexec, State.dischargeCheck_setSlot, State.slot_setSlot_self, hstate]
    refine ⟨fun hstays => ?_, fun hdischarging hrested => ?_⟩
    · rw [if_neg fun h => hstays.elim (fun k => k h.1) fun k => by simp [k] at h]
    · have hcompletes : (u.setSlot i x).completesDischarge i =
          if sl.ctl.target = some .bringUp then (u.setSlot i x).asksGrant i x.ctl
          else if sl.ctl.present = true then (u.setSlot i x).goesOff i else (u.setSlot i x).goesEmpty i := by
        rw [State.completesDischarge, State.slot_setSlot_self, htarget, hpresent]
      rw [if_pos ⟨hdischarging, hrested⟩, hcompletes]
      exact ⟨fun h => by rw [if_pos h], fun h hp => by rw [if_neg (by simp [h]), if_pos hp],
        fun h hp => by rw [if_neg (by simp [h]), if_neg (by simp [hp])]⟩
  · intro s i hpor hstate hdue
    have hexec : exec (.dischargeTimeout i) s = .next (s.dischargeExpiry i) := next_running _ hpor
    rw [hexec, State.dischargeExpiry_eq hstate hdue]
    exact ⟨fun htarget => by rw [if_neg (by simp [htarget])], fun htarget => by rw [if_pos htarget]⟩

end Sys2Proof.Machine
end

section
/-! The upstream reset, the outputs, presence, and the rail scan with its over-current event (R17, R18, R40, R60, R110 to R112, R163 to R167,
R170 to R172). -/

namespace Sys2Proof.Machine

/-! ### The upstream reset -/

/-- R17, R18: what every UPSTREAM-RESET clears of the slot but its entries. -/
def Slot.upstreamCleared (sl : Slot) : Slot :=
  { sl with
    chan.inReset := true, chan.hold := none, chan.cardHold := none, chan.identity := none, chan.hostWaiting := []
    outbound := { tags := [], deadline := none }
    store.entries := [], store.incomplete := false, store.sequence := [] }

theorem State.upstreamClear_eq (s : State) (i : SlotId) :
    s.upstreamClear i =
      ({ s with poolWait := s.poolWait.filter fun j => j ≠ i } : State).setSlot i (s.slot i).upstreamCleared := by
  rw [State.upstreamClear, State.emptyHold, State.modSlot_modSlot]
  rfl

/-- R26, R40: with nobody to take an entry the other slots stand. -/
theorem State.discards_unclaimed {s : State} {i : SlotId} (hhold : (s.slot i).chan.hold = none) (hfree : s.unclaimed i) :
    s.discards i = s.setSlot i { s.slot i with entries := [] } := by
  unfold State.discards
  generalize hl : (s.slot i).entries = l
  induction l generalizing s with
  | nil =>
    have hkept : ({ s.slot i with entries := [] } : Slot) = s.slot i := by rw [← hl]
    rw [hkept, State.setSlot_slot, List.foldl_nil]
  | cons e rest ih =>
    have htail : s.frees i { s.slot i with entries := (s.slot i).entries.tail } =
        s.setSlot i { s.slot i with entries := (s.slot i).entries.tail } := State.frees_unclaimed hfree (.inr hhold)
    have hfree' : (s.setSlot i { s.slot i with entries := (s.slot i).entries.tail }).unclaimed i := fun j hj hne => by
      rw [State.slot_setSlot_of_ne _ _ hne]
      exact hfree j hj hne
    rw [List.foldl_cons, htail, ih (by rw [State.slot_setSlot_self]; exact hhold) hfree'
      (by rw [State.slot_setSlot_self, hl]; rfl), State.slot_setSlot_self, State.setSlot_setSlot]

theorem State.enterUpstream_eq (s : State) (i : SlotId) :
    s.enterUpstream i = s.moved i
      { s.slot i with
        chan.gateOpen := false
        ctl :=
          { (s.slot i).ctl.into .resetting with
            reason := some .upstream, attempts := 1, resetKind := some .warm, origin := some .upstream
            pulseTimer := .awaitingRelease } } := by
  rw [State.enterUpstream, State.drive_eq_moved, Slot.moveTo_eq]
  rfl

/-- R17, R18, R40, R131: the reset clears, discards, and then goes by the slot's state. -/
theorem State.upstreamReset_eq (s : State) (i : SlotId) :
    s.upstreamReset i =
      (let t := (({ s with poolWait := s.poolWait.filter fun j => j ≠ i } : State).setSlot i
        (s.slot i).upstreamCleared).discards i
      if (t.slot i).serving then t.enterUpstream i
      else if (t.slot i).ctl.state = .fencing then t.leavesFencing i
      else t.replayCleared i) := by
  have hhold : ((({ s with poolWait := s.poolWait.filter fun j => j ≠ i } : State).setSlot i
      (s.slot i).upstreamCleared).slot i).chan.hold = none := by rw [State.slot_setSlot_self]; rfl
  rw [State.upstreamReset, State.upstreamClear_eq, State.discardEntries_eq hhold]
  simp only [Slot.inService_iff, State.leaveFencing_eq]

/-- R131: in RESTORING with no write outstanding the replay is done. -/
theorem State.replayCleared_eq (s : State) (i : SlotId) :
    s.replayCleared i =
      if (s.slot i).ctl.state = .restoring ∧ (s.slot i).store.outstanding = none then
        (s.setSlot i { s.slot i with store := (s.slot i).store.stopped }).goesOnline i
      else s := by
  simp only [State.replayCleared, Bool.and_eq_true, decide_eq_true_eq, Option.isNone_iff_eq_none, State.replayDone_eq]

theorem State.upstreamRelease_eq (s : State) (i : SlotId) :
    s.upstreamRelease i =
      if (s.slot i).chan.inReset = true then s.setSlot i
        { s.slot i with
          chan.inReset := false
          ctl.pulseTimer :=
            if (s.slot i).ctl.pulseTimer = .awaitingRelease then
              .running (s.now + BitVec.ofNat 32 (1000 * (s.slot i).policy.resetPulse))
            else (s.slot i).ctl.pulseTimer }
      else s := rfl

/-- Settles O35: the clearing, and what follows it by the slot's state; and the release. -/
theorem upstreamResetForgetsTheSlot : Obligations.UpstreamResetForgetsTheSlot := by
  intro s i hpor sl cleared rest t
  have hhold : ((rest.setSlot i { cleared with entries := sl.entries }).slot i).chan.hold = none := by
    rw [State.slot_setSlot_self]
  have hslot : t.slot i = cleared := by
    show ((State.setSlot _ i _).discards i).slot i = _
    rw [State.slot_discards hhold, State.slot_setSlot_self]
  have hreset : exec (.upstreamReset i) s = .next
      (if (t.slot i).serving then t.enterUpstream i
      else if (t.slot i).ctl.state = .fencing then t.leavesFencing i
      else t.replayCleared i) :=
    (next_running _ hpor).trans (congrArg _ (s.upstreamReset_eq i))
  have hrelease : exec (.upstreamRelease i) s = .next (s.upstreamRelease i) := next_running _ hpor
  have hstate : (t.slot i).ctl.state = (s.slot i).ctl.state := by rw [hslot]
  refine ⟨hslot, fun hfree => ?_, fun hclosed hfencing hreplay => ?_, fun hopen => ?_, fun hfencing => ?_,
    fun hrestoring hout => ?_, fun hheld => ?_, fun hrunning => ?_⟩
  · obtain hunclaimed | hempty := hfree
    · have hfree : (rest.setSlot i { cleared with entries := sl.entries }).unclaimed i := fun j hj hne => by
        rw [State.slot_setSlot_of_ne _ _ hne]
        exact hunclaimed j (List.mem_of_mem_filter hj) hne
      show (State.setSlot _ i _).discards i = _
      rw [State.discards_unclaimed hhold hfree, State.slot_setSlot_self, State.setSlot_setSlot]
    · have hnone : ((rest.setSlot i { cleared with entries := sl.entries }).slot i).entries = [] := by
        rw [State.slot_setSlot_self]
        exact hempty
      have hkept : ({ cleared with entries := sl.entries } : Slot) = cleared := by
        rw [show sl.entries = [] from hempty]
      show (State.setSlot _ i _).discards i = _
      rw [State.discards, hnone, List.foldl_nil, hkept]
  · have hdone : ¬ ((t.slot i).ctl.state = .restoring ∧ (t.slot i).store.outstanding = none) := by
      rw [hslot]
      exact fun h => hreplay h.1 h.2
    rw [hreset, if_neg (by rw [Slot.serving, hstate]; exact hclosed), if_neg (by rw [hstate]; exact hfencing),
      State.replayCleared_eq, if_neg hdone]
  · rw [hreset, if_pos (by rw [Slot.serving, hstate]; exact hopen), State.enterUpstream_eq, hslot]
  · have hclosed : ¬ (t.slot i).serving := Slot.not_serving_of_fencing (hstate.trans hfencing)
    rw [hreset, if_neg hclosed, if_pos (hstate.trans hfencing)]
  · have hclosed : ¬ (t.slot i).serving := by
      rw [Slot.serving, hstate, show (s.slot i).ctl.state = .restoring from hrestoring]
      decide
    have hfencing : ¬ (t.slot i).ctl.state = .fencing := by
      rw [hstate, show (s.slot i).ctl.state = .restoring from hrestoring]
      decide
    have hdone : (t.slot i).ctl.state = .restoring ∧ (t.slot i).store.outstanding = none := by
      rw [hslot]
      exact ⟨hrestoring, hout⟩
    rw [hreset, if_neg hclosed, if_neg hfencing, State.replayCleared_eq, if_pos hdone, hslot]
  · rw [hrelease, State.upstreamRelease_eq, if_pos hheld]
  · rw [hrelease, State.upstreamRelease_eq, if_neg (by simp [show (s.slot i).chan.inReset = false from hrunning])]

/-! ### The outputs -/

/-- R165: in LIVE the drive of the state, and the line at its level. -/
theorem Slot.drive_of_live {sl : Slot} (h : sl.pins.mode = .live) :
    sl.drive = some (sl.ctl.state.liveDrive sl.ctl.powerCut) ∧ sl.pwren = (sl.ctl.state.liveDrive sl.ctl.powerCut).pwren := by
  simp only [Slot.pwren, Slot.drive, h, and_self]

/-- Settles O48: the drive by mode and state, the board's level, and the blink. -/
theorem outputsFollowStateAndMode : Obligations.OutputsFollowStateAndMode := by
  constructor
  · intro sl drives
    refine ⟨fun hlive => ?_, fun hhold => ?_, fun hfloat => ?_⟩
    · have hdrives {st : SlotState} {b p k c : Bool} {a : Attn} (hstate : sl.ctl.state = st) (hcut : sl.ctl.powerCut = b)
          (hdrive : st.liveDrive b = ⟨p, k, c, a⟩) : drives p k c a := by
        obtain ⟨hd, hp⟩ := Slot.drive_of_live hlive
        rw [hstate, hcut, hdrive] at hd hp
        exact ⟨hd, hp⟩
      refine ⟨?_, fun h => hdrives h rfl rfl, fun h => hdrives h rfl rfl, fun h hcut => hdrives h hcut rfl,
        fun h hcut => hdrives h hcut rfl, ?_, fun h => hdrives h rfl rfl, ?_, fun h => hdrives h rfl rfl,
        fun h => hdrives h rfl rfl, ?_⟩
      · rintro (h | h) <;> exact hdrives h rfl rfl
      · rintro (h | h) hcut <;> exact hdrives h hcut rfl
      · rintro (h | h) <;> exact hdrives h rfl rfl
      · rintro (h | h) <;> exact hdrives h rfl rfl
    · have hd : sl.drive = some sl.pins.held := by simp only [Slot.drive, hhold]
      exact ⟨hd, by simp only [Slot.pwren, hd]⟩
    · have hd : sl.drive = none := by simp only [Slot.drive, hfloat]
      exact ⟨hd, by simp only [Slot.pwren, hd]⟩
  · intro s i b sl
    refine ⟨fun hpor => ?_, fun hpor => ?_, fun hpor hdue => ?_⟩
    · show .next (s.pwrenPin i b) = (_ : Host.Outcome State Fault Refusal)
      rw [State.pwrenPin, if_neg (by simp [hpor]), State.pwrenChange, State.drive_eq_moved]
    · exact congrArg _ (if_pos hpor)
    · have hexec : exec (.attnBlinkToggle i) s = .next (s.blinkToggle i) := next_running _ hpor
      rw [hexec]
      exact congrArg _ (if_pos (State.due_iff.2 hdue))

/-! ### Presence -/

/-- R201: of the timers started at the end of power-on reset the lower slots' are delivered first. -/
theorem State.startUpTurn_iff (s : State) (i : SlotId) :
    s.startUpTurn i = true ↔ ((s.slot i).pins.startUp = true →
      ∀ j < i, (s.slot j).pins.startUp = true → (s.slot j).pins.debounce ≠ some s.now) := by
  simp only [State.startUpTurn, Bool.or_eq_true, Bool.not_eq_true', List.all_eq_true, decide_eq_true_eq, mem_slotIds,
    true_implies, ← Bool.not_eq_true, State.due_iff]
  constructor
  · intro h hstart j hj hstart' hdue
    exact (h.resolve_left (not_not_intro hstart) j).elim (fun k => k.elim hj.not_ge (· hstart')) (· hdue)
  · intro h
    by_cases hstart : (s.slot i).pins.startUp = true
    · refine .inr fun j => ?_
      by_cases hj : i ≤ j
      · exact .inl (.inl hj)
      · by_cases hstart' : (s.slot j).pins.startUp = true
        · exact .inr (h hstart j (not_le.1 hj) hstart')
        · exact .inl (.inr hstart')
    · exact .inl hstart

/-- R171: a change of the level starts or stops the debounce timer. -/
theorem State.prsntChange_eq {s : State} {i : SlotId} {b : Bool} (h : (s.slot i).pins.prsnt ≠ b) :
    s.prsntChange i b = s.setSlot i
      { s.slot i with
        pins.prsnt := b
        pins.startUp := false
        pins.debounce := if b = (s.slot i).pins.delivered then none else some (s.now + 20000#32) } :=
  if_pos (bne_iff_ne.2 h)

/-- R172: what is told at a delivery. -/
def State.presenceTold (s : State) (i : SlotId) (b : Bool) : State :=
  (s.setSlot i
    { s.slot i with
      pins.delivered := b, pins.debounce := none, pins.startUp := false, ctl.present := b }).reporting
    (s.note .presence i (some (if b = true then .inserted else .removed)) none)

theorem State.slot_presenceTold (s : State) (i : SlotId) (b : Bool) :
    (s.presenceTold i b).slot i =
      { s.slot i with pins.delivered := b, pins.debounce := none, pins.startUp := false, ctl.present := b } :=
  s.slot_setSlot_self i _

/-- R110 to R112: an insertion after its report. -/
def State.inserts (s : State) (i : SlotId) : State :=
  if (s.slot i).ctl.state = .empty then
    if (s.slot i).policy.autoPower = true ∧ (s.slot i).pins.mode = .live then s.bringsUp i .inserted
    else (s.setSlot i { s.slot i with ctl.reason := some .inserted }).goesOff i
  else s

/-- R112: a loss after its report, by the slot's state. -/
def State.loses (s : State) (i : SlotId) : State :=
  match (s.slot i).ctl.state with
  | .empty => s
  | .off => s.goesEmpty i
  | .online => s.fences i .removed .off
  | .suspect => s.fences i .removed .off
  | .fencing => (s.sweeps i).discharges i (s.slot i).ctl .off
  | .isolated => s.discharges i { (s.slot i).ctl with reason := some .removed } .off
  | .quarantined => s.discharges i { (s.slot i).ctl with reason := some .removed } .off
  | _ => s.abandons i .removed

theorem State.removedInFencing_eq {s : State} {i : SlotId} (h : ¬ (s.slot i).serving) :
    s.removedInFencing i = (s.sweeps i).discharges i (s.slot i).ctl .off := by
  rw [State.removedInFencing, State.sweep_eq h, State.enterDischarging_eq, State.slot_sweeps h]

theorem State.insertion_eq (s : State) (i : SlotId) :
    s.insertion i = (s.modSlot i fun sl => { sl with ctl.present := true }).inserts i := by
  unfold State.insertion State.when
  generalize State.modSlot s i _ = t
  dsimp only
  unfold State.inserts
  by_cases hempty : (t.slot i).ctl.state = .empty
  · rw [if_pos hempty, if_pos (decide_eq_true hempty), State.slot_modSlot_self, State.enterOff_eq,
      State.bringUp_eq .inserted (.inr hempty)]
    by_cases hauto : (t.slot i).policy.autoPower = true ∧ (t.slot i).pins.mode = .live
    · rw [if_pos hauto, if_pos (by simp [hauto])]
    · rw [if_neg hauto, if_neg (by simpa using hauto), State.modSlot]
  · simp only [hempty, decide_false, Bool.false_eq_true, if_false]

theorem State.loss_eq (s : State) (i : SlotId) :
    s.loss i = (s.modSlot i fun sl => { sl with ctl.present := false }).loses i := by
  unfold State.loss
  generalize State.modSlot s i _ = t
  dsimp only
  unfold State.loses
  have hfence (h : (t.slot i).serving) : t.fence i .removed .off = t.fences i .removed .off := State.fence_eq h
  cases hstate : (t.slot i).ctl.state <;> dsimp only
  case off => rw [State.enterEmpty_eq]
  case online => exact hfence (.inl hstate)
  case suspect => exact hfence (.inr hstate)
  case fencing => exact State.removedInFencing_eq (Slot.not_serving_of_fencing hstate)
  case isolated => rw [State.powerAway_eq]
  case quarantined => rw [State.powerAway_eq]
  all_goals rw [State.abandonAttempt_eq]

theorem State.report_reporting (s : State) (kind : ReportKind) (i : SlotId) (reason : Option Reason) (value : Option Nat) :
    s.report kind i reason value = s.reporting (s.note kind i reason value) := s.report_eq kind i reason value

/-- R172: the presence bit follows the report. -/
theorem State.presenceTold_eq (s : State) (i : SlotId) (b : Bool) :
    ((s.modSlot i fun sl =>
        { sl with pins.delivered := b, pins.debounce := none, pins.startUp := false }).report .presence i
      (some (if b = true then .inserted else .removed)) none).modSlot i (fun sl => { sl with ctl.present := b }) =
      s.presenceTold i b := by
  rw [State.report_reporting, State.reporting_modSlot, State.modSlot_modSlot]
  rfl

/-- R171, R172: at its turn the level is delivered, reported and acted on. -/
theorem State.debounceExpiry_eq {s : State} {i : SlotId} (hdue : (s.slot i).pins.debounce = some s.now)
    (hturn : s.startUpTurn i = true) :
    s.debounceExpiry i =
      if (s.slot i).pins.prsnt = true then (s.presenceTold i true).inserts i else (s.presenceTold i false).loses i := by
  rw [State.debounceExpiry, State.when, if_pos (by rw [State.due_iff.2 hdue, hturn]; rfl)]
  dsimp only
  cases (s.slot i).pins.prsnt
  · exact (State.loss_eq _ i).trans (congrArg (State.loses · i) (s.presenceTold_eq i false))
  · exact (State.insertion_eq _ i).trans (congrArg (State.inserts · i) (s.presenceTold_eq i true))

/-- Settles O44: the level and its timer, and a delivery's turn and what an insertion does. -/
theorem presenceIsDebouncedAndDelivered : Obligations.PresenceIsDebouncedAndDelivered := by
  constructor
  · intro s i b sl
    refine ⟨fun hpor hchange => ?_, fun hpor hsame => ?_, fun hpor => congrArg _ (if_pos hpor)⟩
    · have hexec : exec (.prsntChange i b) s = .next (s.prsntChange i b) := congrArg _ (if_neg (by simp [hpor]))
      rw [hexec, State.prsntChange_eq hchange]
    · have hexec : exec (.prsntChange i b) s = .next (s.prsntChange i b) := congrArg _ (if_neg (by simp [hpor]))
      rw [hexec]
      exact congrArg _ (if_neg (by simp [show (s.slot i).pins.prsnt = b from hsame]))
  · intro s i hpor hdue sl first delivered told
    have hexec : exec (.presenceDebounceExpiry i) s = .next (s.debounceExpiry i) := next_running _ hpor
    have hturn : s.startUpTurn i = true ↔ first := s.startUpTurn_iff i
    refine ⟨fun hlater => ?_, fun hfirst hprsnt => ?_⟩
    · have hnot : ¬ (s.due (s.slot i).pins.debounce && s.startUpTurn i) = true := by
        rw [Bool.and_eq_true, hturn]
        exact fun h => hlater h.2
      rw [hexec]
      exact congrArg _ (if_neg hnot)
    · have hacts : exec (.presenceDebounceExpiry i) s = .next (told.inserts i) := by
        rw [hexec, State.debounceExpiry_eq hdue (hturn.2 hfirst), if_pos hprsnt]
        rfl
      have hslot : told.slot i = { delivered with ctl.present := true } := s.slot_presenceTold i true
      have hstate : (told.slot i).ctl.state = sl.ctl.state := by rw [hslot]
      have hwhere : (told.slot i).policy.autoPower = true ∧ (told.slot i).pins.mode = .live ↔
          sl.policy.autoPower = true ∧ sl.pins.mode = .live := by rw [hslot]
      rw [hacts, State.inserts, hstate]
      simp only [hwhere]
      refine ⟨fun helse => by rw [if_neg helse], fun hempty hoff => ?_, fun hempty hauto hlive => ?_⟩
      · have hnot : ¬ (sl.policy.autoPower = true ∧ sl.pins.mode = .live) := fun h =>
          hoff.elim (fun k => by simp [k] at h) fun k => k h.2
        rw [if_pos hempty, if_neg hnot]
      · rw [if_pos hempty, if_pos ⟨hauto, hlive⟩]

/-- Settles O45: a loss by the slot's state. -/
theorem lossActsByState : Obligations.LossActsByState := by
  intro s i hpor hdue hstart hprsnt sl delivered told done
  have hkept : told = s.presenceTold i false := by
    have hpins : ({ delivered with pins.startUp := false } : Slot) = delivered := by
      show ({ sl with pins := _ } : Slot) = _
      rw [← hstart]
    show State.reporting (s.setSlot i { delivered with ctl.present := false }) _ = _
    rw [← hpins]
    rfl
  have hdone : done = .next (told.loses i) := by
    have hexec : done = .next (s.debounceExpiry i) := next_running _ hpor
    rw [hexec, State.debounceExpiry_eq hdue ((s.startUpTurn_iff i).2 fun h => by simp [hstart] at h),
      if_neg (by simp [hprsnt]), hkept]
  have hstate : (told.slot i).ctl.state = sl.ctl.state := by rw [hkept, State.slot_presenceTold]
  rw [hdone, State.loses, hstate]
  refine ⟨fun h => by rw [h], fun h => by rw [h], ?_, fun h => by rw [h], ?_, fun h => ?_⟩
  · rintro (h | h) <;> rw [h]
  · rintro (h | h) <;> rw [h]
  · simp only [List.mem_cons, List.not_mem_nil, or_false] at h
    obtain h | h | h | h | h | h := h <;> rw [h]

/-! ### The scan (R163 to R167) -/

/-- R166, R167: a current result with PWREN on counts in the run of high samples. -/
theorem State.currentSample_setSlot (s : State) (i : SlotId) (x : Slot) (milliamps : Nat) :
    (s.setSlot i x).currentSample i milliamps =
      if x.pwren = true then
        if milliamps ≤ x.currentLimit then s.setSlot i { x with rails.runCount := 0 }
        else if x.rails.runCount = 0 then s.setSlot i { x with rails.runCount := 1 }
        else (s.setSlot i { x with rails.runCount := 0 }).overcurrent i
          (if x.ctl.state = .ramping then .ramp else .limit) milliamps
      else s.setSlot i x := by
  simp only [State.currentSample, State.when, State.modSlot, State.slot_setSlot_self, State.setSlot_setSlot]

/-- Settles O46: a voltage result is kept, and a current result counts in the run. -/
theorem conversionEndKeepsTheResult : Obligations.ConversionEndKeepsTheResult := by
  intro s q i place hpor hdue hchannel hplace sl t kept done current limit
  have hend : done = .next
      (if s.monitor.discard = true then t
      else t.keepResult i place { code := railCode q (railStep place), mark := true, afterOff := s.monitor.afterOff }) :=
    (next_running _ hpor).trans (congrArg _ (State.conversionEnd_eq q hdue hchannel hplace))
  refine ⟨fun hdiscard => by rw [hend, if_pos hdiscard], fun hkeeps => ?_⟩
  rw [if_neg (by simp [hkeeps])] at hend
  refine ⟨?_, ?_, ?_⟩
  · rintro rfl hstate
    rw [hend]
    exact congrArg _ ((State.dischargeCheck_setSlot t i _).trans (if_neg fun h => hstate h.1))
  · rintro rfl hstate
    rw [hend]
    exact congrArg _ ((State.dischargeCheck_setSlot t i _).trans (if_neg fun h => hstate h.1))
  · rintro rfl
    have hsample : done = .next ((t.setSlot i current).currentSample i (5 * railCode q 5)) := hend
    have hpwren : current.pwren = sl.pwren := rfl
    have hlimit : current.currentLimit = limit := rfl
    rw [hsample, State.currentSample_setSlot, hpwren, hlimit]
    refine ⟨fun hoff => ?_, fun hon hlow => ?_, fun hon hhigh hfirst => ?_⟩
    · rw [if_neg (by rw [hoff]; decide)]
    · rw [if_pos hon, if_pos hlow]
    · rw [if_pos hon, if_neg hhigh.not_ge, if_pos hfirst]

/-- R167: what the slot controller does at an over-current event, by the slot's state. -/
theorem State.overcurrentByState_eq (s : State) (i : SlotId) :
    ((s.slot i).serving → s.overcurrentByState i = s.fences i .overcurrent .recover)
    ∧ ((s.slot i).ctl.state = .fencing → s.overcurrentByState i =
        ((s.moved i { s.slot i with ctl.powerCut := true }).sweeps i).leavesFencing i)
    ∧ ((s.slot i).ctl.state = .isolated → s.overcurrentByState i = s.moved i { s.slot i with ctl.powerCut := true })
    ∧ ((s.slot i).ctl.state ∈ [.ramping, .resetting, .training, .restoring] →
        s.overcurrentByState i = s.failsAttempt i .overcurrent)
    ∧ ((s.slot i).ctl.state ∈ [.empty, .off, .quarantined, .discharging, .powerWait] → s.overcurrentByState i = s) := by
  refine ⟨fun h => ?_, fun h => ?_, fun h => ?_, fun h => ?_, fun h => ?_⟩
  · have hfence : s.fence i .overcurrent .recover = s.fences i .overcurrent .recover := State.fence_eq h
    obtain h | h := h <;> simp only [State.overcurrentByState, h, hfence]
  · have hcut : ((s.moved i { s.slot i with ctl.powerCut := true }).slot i).ctl.state = .fencing := by
      rw [State.moved_state]
      exact h
    have hends : s.overcurrentByState i = s.overcurrentInFencing i := by simp only [State.overcurrentByState, h]
    rw [hends, State.overcurrentInFencing, State.drive_eq_moved, State.endDrain_eq (Slot.not_serving_of_fencing hcut)]
  · simp only [State.overcurrentByState, h, State.drive_eq_moved]
  · simp only [List.mem_cons, List.not_mem_nil, or_false] at h
    obtain h | h | h | h := h <;> simp only [State.overcurrentByState, h, State.attemptFailure_eq]
  · simp only [List.mem_cons, List.not_mem_nil, or_false] at h
    obtain h | h | h | h | h := h <;> simp only [State.overcurrentByState, h]

theorem State.returnsToLive_state (s : State) (i : SlotId) :
    ((s.returnsToLive i).slot i).ctl.state = (s.slot i).ctl.state := by
  unfold State.returnsToLive
  dsimp only
  split
  · rfl
  · rw [State.moved_state]

/-- Settles O47: a second high sample in a row is reported, returns the pins to LIVE, and acts by the state. -/
theorem overcurrentActsByState : Obligations.OvercurrentActsByState := by
  intro s q i hpor hdue hchannel hkeeps sl limit hon hhigh hrun next sampled live cut done
  have hsampled : done = .next ((next.setSlot i
      { sl with
        rails.current := some { code := railCode q 5, mark := true, afterOff := s.monitor.afterOff } }).currentSample i
        (5 * railCode q 5)) := by
    refine (next_running _ hpor).trans (congrArg _ ?_)
    rw [State.conversionEnd_eq q hdue hchannel (by decide), if_neg (by simp [hkeeps])]
    rfl
  have hdone : done = .next (live.overcurrentByState i) := by
    have hpwren (r : Rails) : ({ sl with rails := r } : Slot).pwren = sl.pwren := rfl
    have hlimit (r : Rails) : ({ sl with rails := r } : Slot).currentLimit = limit := rfl
    rw [hsampled, State.currentSample_setSlot, hpwren, hlimit, if_pos hon, if_neg hhigh.not_ge, if_neg hrun,
      State.overcurrent, State.forceLive_eq, State.report_reporting]
    rfl
  have hstate : (live.slot i).ctl.state = sl.ctl.state := by
    refine (State.returnsToLive_state _ i).trans ?_
    show ((next.setSlot i _).slot i).ctl.state = _
    rw [State.slot_setSlot_self]
  obtain ⟨hserving, hfencing, hisolated, hattempt, helse⟩ := live.overcurrentByState_eq i
  rw [Slot.serving, hstate] at hserving
  rw [hstate] at hfencing hisolated hattempt helse
  refine ⟨fun h => ?_, fun h => ?_, fun h => ?_, fun h => ?_, fun h => ?_⟩
  · rw [hdone, hserving h]
  · rw [hdone, hfencing h]
  · rw [hdone, hisolated h]
  · rw [hdone, hattempt h]
  · rw [hdone, helse h]

end Sys2Proof.Machine
end

section
/-! The requests of the management link: the reply of a request that is taken as it arrives (R182 to R185), and the requests that change the
budget, the image, the pins and the slot's state. -/

namespace Sys2Proof.Machine

/-! ### No time passes in an operation of a slot -/

theorem State.elapsed_absorbsHold (s : State) (i : SlotId) : (s.absorbsHold i).elapsed = s.elapsed :=
  (s.absorbsHold_spares i).elapsed

theorem State.elapsed_failsBudget (s : State) (i : SlotId) : (s.failsBudget i).elapsed = s.elapsed :=
  State.elapsed_goesQuarantined _ i .budget

theorem State.elapsed_asksGrant (s : State) (i : SlotId) (c : Controller) : (s.asksGrant i c).elapsed = s.elapsed := by
  unfold State.asksGrant
  dsimp only
  split
  · exact State.elapsed_failsBudget _ i
  · exact State.elapsed_grantCheck _

theorem State.elapsed_completesDischarge (s : State) (i : SlotId) : (s.completesDischarge i).elapsed = s.elapsed := by
  unfold State.completesDischarge
  split
  · exact s.elapsed_asksGrant i _
  · split <;> rfl

theorem State.elapsed_discharges (s : State) (i : SlotId) (c : Controller) (t : Target) :
    (s.discharges i c t).elapsed = s.elapsed := by
  unfold State.discharges
  dsimp only
  split
  · exact (State.elapsed_completesDischarge _ i).trans (State.elapsed_absorbsHold _ i)
  · exact State.elapsed_absorbsHold _ i

theorem State.elapsed_recovers (s : State) (i : SlotId) (k : ResetKind) : (s.recovers i k).elapsed = s.elapsed := by
  unfold State.recovers
  dsimp only
  split
  · rfl
  · exact s.elapsed_discharges i _ _

theorem State.elapsed_bringsUp (s : State) (i : SlotId) (r : Reason) : (s.bringsUp i r).elapsed = s.elapsed := by
  unfold State.bringsUp
  dsimp only
  split
  · exact s.elapsed_asksGrant i _
  · exact s.elapsed_discharges i _ _

theorem State.elapsed_goesIsolated (s : State) (i : SlotId) : (s.goesIsolated i).elapsed = s.elapsed := by
  unfold State.goesIsolated
  dsimp only
  split
  · rfl
  · rfl
  · exact State.elapsed_recovers _ i _

theorem State.elapsed_leavesFencing (s : State) (i : SlotId) : (s.leavesFencing i).elapsed = s.elapsed := by
  unfold State.leavesFencing
  split
  · exact s.elapsed_discharges i _ _
  · exact s.elapsed_goesIsolated i

theorem State.elapsed_goesFencing (s : State) (i : SlotId) (r : Reason) (d : Disposition) :
    (s.goesFencing i r d).elapsed = s.elapsed :=
  ((State.absorbsHold_spares _ i).trans (State.blocksHold_spares _ i)).elapsed

theorem State.elapsed_fences (s : State) (i : SlotId) (r : Reason) (d : Disposition) :
    (s.fences i r d).elapsed = s.elapsed := by
  unfold State.fences
  dsimp only
  split
  · exact ((State.elapsed_leavesFencing _ i).trans (State.elapsed_sweeps _ i)).trans (s.elapsed_goesFencing i r d)
  · exact s.elapsed_goesFencing i r d

theorem State.elapsed_stageLeft (s : State) (i : SlotId) : (s.stageLeft i).elapsed = s.elapsed := by
  unfold State.stageLeft
  split
  · exact State.elapsed_grantCheck _
  · rfl
  · rfl

theorem State.elapsed_queueLeft (s : State) (i : SlotId) : (s.queueLeft i).elapsed = s.elapsed := by
  unfold State.queueLeft
  dsimp only
  split
  · exact State.elapsed_grantCheck _
  · rfl

theorem State.elapsed_abandons (s : State) (i : SlotId) (r : Reason) : (s.abandons i r).elapsed = s.elapsed := by
  unfold State.abandons
  dsimp only
  split
  · split <;> rfl
  · refine (State.elapsed_discharges _ i _ _).trans ?_
    split
    · exact s.elapsed_queueLeft i
    · exact s.elapsed_stageLeft i

theorem State.elapsed_reoffersHold (s : State) (i : SlotId) : (s.reoffersHold i).elapsed = s.elapsed :=
  (s.reoffersHold_spares i i).2.1

theorem State.elapsed_goesOnline (s : State) (i : SlotId) : (s.goesOnline i).elapsed = s.elapsed := by
  unfold State.goesOnline
  dsimp only
  split <;> exact State.elapsed_reoffersHold _ i

/-! ### The reply -/

/-- R183, R198: the flags byte. -/
theorem State.replyFlags_eq (s : State) :
    s.replyFlags = BitVec.ofNat 8 ((if s.link.overrun then 1 else 0) + if s.reports.records = [] then 0 else 2) := by
  have halert : s.alert = true ↔ ¬ s.reports.records = [] := by simp [State.alert]
  have hwaiting : flag s.alert 1 = if s.reports.records = [] then 0 else 2 := by
    by_cases h : s.reports.records = []
    · rw [flag, if_neg fun k => halert.1 k h, if_pos h]
    · rw [flag, if_pos (halert.2 h), if_neg h]
      rfl
  rw [State.replyFlags, hwaiting]
  rfl

/-- R184, R185: the reply of an answer given as its request arrives. -/
theorem State.reply_eq {s : State} {a : Answer} (code : Byte) (helapsed : a.after.elapsed = s.elapsed)
    (hpart : a.partReset = false) :
    State.reply a code s.lineNow s.lineNow = a.after.answering (code + 0x80) a.status.code a.data := by
  have hnow : s.lineNow = a.after.elapsed * 576 := congrArg (· * 576) helapsed.symm
  simp only [State.reply, State.answering, hnow, hpart, State.replyFlags_eq]
  rw [Nat.max_eq_right (Nat.le_add_right _ _)]
  rfl

/-- R182: a request that finds the link idle is taken as it arrives. -/
theorem exec_of_linkReady {s : State} {c : Instr} {sb : Byte} {r : BmcRequest} (hreq : c.request = some (sb, r))
    (hwf : c.wf = true) (hready : s.linkReady) : exec c s = .next (s.takeRequest sb r s.lineNow s.lineNow) := by
  obtain ⟨hpor, hcreset, hidle⟩ := hready
  rw [exec_of_request s hreq hwf, next_running _ hpor, State.submit, if_neg (by simp [hcreset]), if_pos (by simp [hidle])]

/-- R183, R185: its reply follows its effect. -/
theorem exec_answers {s : State} {c : Instr} {sb : Byte} {r : BmcRequest} {a : Answer} (hreq : c.request = some (sb, r))
    (hwf : c.wf = true) (hready : s.linkReady) (ha : s.perform sb r = a) (helapsed : a.after.elapsed = s.elapsed)
    (hpart : a.partReset = false) :
    exec c s = .next (a.after.answering (r.code + 0x80) a.status.code a.data) := by
  rw [exec_of_linkReady hreq hwf hready, State.takeRequest, ha, State.reply_eq r.code helapsed hpart]

/-- R185: the slot byte of a slot names it. -/
theorem State.forSlot_slotByte (s : State) (i : SlotId) (f : SlotId → Answer) : s.forSlot (slotByte i) f = f i := by
  have hbyte : (slotByte i).toNat = i.val := by
    rw [slotByte, BitVec.toNat_ofNat]
    omega
  have hslot : (slotByte i).toNat < 8 := by omega
  rw [State.forSlot, dif_pos hslot]
  exact congrArg f (Fin.ext hbyte)

section
variable {s : State} {c : Instr} {i : SlotId} {r : BmcRequest} {a : Answer}

/-- R185: a slot request that names slot `i`, carried out with a status. -/
theorem exec_slotRequest (f : SlotId → Answer) (hreq : c.request = some (slotByte i, r)) (hwf : c.wf = true)
    (hperform : s.perform (slotByte i) r = s.forSlot (slotByte i) f) (hready : s.linkReady) (ha : f i = a)
    (helapsed : a.after.elapsed = s.elapsed) (hpart : a.partReset = false) :
    exec c s = .next (a.after.answering (r.code + 0x80) a.status.code a.data) :=
  exec_answers hreq hwf hready (hperform.trans ((s.forSlot_slotByte i f).trans ha)) helapsed hpart

variable (hready : s.linkReady)
include hready

theorem exec_fence (ha : s.doFence i = a) (helapsed : a.after.elapsed = s.elapsed) (hpart : a.partReset = false) :
    exec (.fence (slotByte i)) s = .next (a.after.answering 0x84 a.status.code a.data) :=
  exec_slotRequest (r := .fence) s.doFence rfl rfl rfl hready ha helapsed hpart

theorem exec_recover {k : Byte} (ha : s.doRecover i k = a) (helapsed : a.after.elapsed = s.elapsed)
    (hpart : a.partReset = false) :
    exec (.recover (slotByte i) k) s = .next (a.after.answering 0x85 a.status.code a.data) :=
  exec_slotRequest (r := .recover k) (fun i => s.doRecover i k) rfl rfl rfl hready ha helapsed hpart

theorem exec_quar (ha : s.doQuar i = a) (helapsed : a.after.elapsed = s.elapsed) (hpart : a.partReset = false) :
    exec (.quar (slotByte i)) s = .next (a.after.answering 0x86 a.status.code a.data) :=
  exec_slotRequest (r := .quar) s.doQuar rfl rfl rfl hready ha helapsed hpart

theorem exec_pwrOn (ha : s.doPwrOn i = a) (helapsed : a.after.elapsed = s.elapsed) (hpart : a.partReset = false) :
    exec (.pwrOn (slotByte i)) s = .next (a.after.answering 0x87 a.status.code a.data) :=
  exec_slotRequest (r := .pwrOn) s.doPwrOn rfl rfl rfl hready ha helapsed hpart

theorem exec_pwrOff (ha : s.doPwrOff i = a) (helapsed : a.after.elapsed = s.elapsed) (hpart : a.partReset = false) :
    exec (.pwrOff (slotByte i)) s = .next (a.after.answering 0x88 a.status.code a.data) :=
  exec_slotRequest (r := .pwrOff) s.doPwrOff rfl rfl rfl hready ha helapsed hpart

end

/-! ### The requests that move a slot -/

/-- R82: RECOVER out of ISOLATED names a kind, DEFAULT the slot's own. -/
theorem Slot.namedKind_eq (sl : Slot) {k : Byte} (hk : k.toNat ≤ 2) :
    sl.namedKind k = if k = 0 then .warm else if k = 1 then .cold else sl.policy.firstKind := by
  have hcases : k = 0 ∨ k = 1 ∨ k = 2 := by
    revert hk
    revert k
    decide
  obtain rfl | rfl | rfl := hcases <;> rfl

section
variable {s : State} {i : SlotId}

theorem State.doFence_eq (s : State) (i : SlotId) :
    s.doFence i = if (s.slot i).serving then (s.fences i .command .recover).done .ok else s.refuse .state := by
  by_cases hopen : (s.slot i).serving
  · rw [State.doFence, if_pos (Slot.inService_of_serving hopen), State.fence_eq hopen, if_pos hopen]
  · rw [State.doFence, if_neg (by simp [Slot.inService_of_not_serving hopen]), if_neg hopen]

theorem State.doRecover_refused {k : Byte} (hk : k.toNat ≤ 2) (h : (s.slot i).pins.mode ≠ .live
    ∨ (s.slot i).ctl.state ≠ .isolated ∧ ((s.slot i).ctl.state ≠ .quarantined ∨ (s.slot i).ctl.present = false)) :
    s.doRecover i k = s.refuse .state := by
  rw [State.doRecover, if_neg hk.not_gt]
  by_cases hlive : (s.slot i).pins.mode = .live
  · obtain ⟨hisolated, hrest⟩ := h.resolve_left (not_not_intro hlive)
    have hnot : ¬ ((s.slot i).ctl.state = .quarantined && (s.slot i).ctl.present) = true := by
      rw [Bool.and_eq_true, decide_eq_true_eq]
      exact fun ⟨hq, hp⟩ => hrest.elim (· hq) (by simp [hp])
    rw [if_neg (not_not_intro hlive), if_neg hisolated, if_neg hnot]
  · rw [if_pos hlive]

theorem State.doRecover_of_isolated {k : Byte} (hk : k.toNat ≤ 2) (hlive : (s.slot i).pins.mode = .live)
    (hstate : (s.slot i).ctl.state = .isolated) :
    s.doRecover i k =
      (s.recovers i (if k = 0 then .warm else if k = 1 then .cold else (s.slot i).policy.firstKind)).done .ok := by
  rw [State.doRecover, if_neg hk.not_gt, if_neg (not_not_intro hlive), if_pos hstate,
    State.startRecovery_eq _ (by simp [hstate]), Slot.namedKind_eq _ hk]

theorem State.doRecover_of_quarantined {k : Byte} (hk : k.toNat ≤ 2) (hlive : (s.slot i).pins.mode = .live)
    (hstate : (s.slot i).ctl.state = .quarantined) (hpresent : (s.slot i).ctl.present = true) :
    s.doRecover i k = (s.recovers i .cold).done .ok := by
  have hcold : (s.slot i).attemptKind .cold = .cold := ite_self _
  have hstart := s.startRecovery_eq (i := i) .cold (by simp [hstate])
  rw [hcold] at hstart
  rw [State.doRecover, if_neg hk.not_gt, if_neg (not_not_intro hlive), if_neg (by simp [hstate]),
    if_pos (by simp [hstate, hpresent]), hstart]

theorem State.doPwrOn_eq (s : State) (i : SlotId) :
    s.doPwrOn i =
      if (s.slot i).ctl.state = .off ∧ (s.slot i).pins.mode = .live then (s.bringsUp i .command).done .ok
      else s.refuse .state := by
  by_cases h : (s.slot i).ctl.state = .off ∧ (s.slot i).pins.mode = .live
  · rw [State.doPwrOn, if_pos (by simp [h]), State.bringUp_eq .command (.inl h.1), if_pos h]
  · rw [State.doPwrOn, if_neg (by simpa using h), if_neg h]

theorem State.doPwrOff_refused (h : (s.slot i).pins.mode ≠ .live ∨ (s.slot i).ctl.state = .fencing) :
    s.doPwrOff i = s.refuse .state := by
  by_cases hlive : (s.slot i).pins.mode = .live
  · rw [State.doPwrOff, if_neg (not_not_intro hlive), h.resolve_left (not_not_intro hlive)]
  · rw [State.doPwrOff, if_pos hlive]

variable (hlive : (s.slot i).pins.mode = .live)
include hlive

theorem State.doPwrOff_of_serving (h : (s.slot i).serving) : s.doPwrOff i = (s.fences i .command .off).done .ok := by
  rw [State.doPwrOff, if_neg (not_not_intro hlive), ← State.fence_eq h]
  obtain h | h := h <;> rw [h]

theorem State.doPwrOff_of_rest (h : (s.slot i).ctl.state = .empty ∨ (s.slot i).ctl.state = .off) :
    s.doPwrOff i = s.done .ok := by
  rw [State.doPwrOff, if_neg (not_not_intro hlive)]
  obtain h | h := h <;> rw [h]

theorem State.doPwrOff_of_isolated (h : (s.slot i).ctl.state = .isolated) :
    s.doPwrOff i = (s.discharges i { (s.slot i).ctl with reason := some .command } .off).done .ok := by
  rw [State.doPwrOff, if_neg (not_not_intro hlive), h]
  simp only [State.powerAway_eq, h]

theorem State.doPwrOff_of_quarantined (h : (s.slot i).ctl.state = .quarantined) :
    s.doPwrOff i =
      (let t := s.setSlot i { s.slot i with ctl.reason := some .command }
      if (s.slot i).ctl.present = true then t.goesOff i else t.goesEmpty i).done .ok := by
  have hmatch : s.doPwrOff i =
      (let t := s.modSlot i fun sl => { sl with ctl.reason := some .command }
      if (t.slot i).ctl.present then t.enterOff i else t.enterEmpty i).done .ok := by
    rw [State.doPwrOff, if_neg (not_not_intro hlive), h]
  rw [hmatch]
  dsimp only
  rw [State.slot_modSlot_self, State.enterOff_eq, State.enterEmpty_eq]
  rfl

theorem State.doPwrOff_of_attempt
    (h : (s.slot i).ctl.state ∈ [.discharging, .powerWait, .ramping, .resetting, .training, .restoring]) :
    s.doPwrOff i = (s.abandons i .command).done .ok := by
  rw [State.doPwrOff, if_neg (not_not_intro hlive)]
  simp only [List.mem_cons, List.not_mem_nil, or_false] at h
  obtain h | h | h | h | h | h := h <;> simp only [h, State.abandonAttempt_eq]

end

/-- Settles O60: each request by the slot's state, its effect and its status. -/
theorem movingRequestsMoveTheSlot : Obligations.MovingRequestsMoveTheSlot := by
  intro s i hready sl
  refine ⟨fun hopen => ⟨?_, fun hlive => ?_⟩, fun hclosed => ?_, fun k hk => ?_, fun k hk => ⟨fun hno => ?_,
    fun hlive hisolated => ?_, fun hlive hquarantined hpresent => ?_⟩, fun hisolated => ?_, fun hno => ?_, fun hno => ?_,
    fun hstate hlive => ?_, fun hno => ?_, fun hlive => ⟨fun hstate => ?_, fun hstate => ?_, fun hstate => ?_,
    fun hstate => ?_⟩⟩
  · exact exec_fence hready ((s.doFence_eq i).trans (if_pos hopen)) (s.elapsed_fences i .command .recover) rfl
  · exact exec_pwrOff hready (State.doPwrOff_of_serving hlive hopen) (s.elapsed_fences i .command .off) rfl
  · exact exec_fence hready ((s.doFence_eq i).trans (if_neg hclosed)) rfl rfl
  · exact exec_recover hready (a := s.refuse .range) (if_pos hk) rfl rfl
  · exact exec_recover hready (State.doRecover_refused hk hno) rfl rfl
  · exact exec_recover hready (State.doRecover_of_isolated hk hlive hisolated) (s.elapsed_recovers i _) rfl
  · exact exec_recover hready (State.doRecover_of_quarantined hk hlive hquarantined hpresent) (s.elapsed_recovers i _) rfl
  · exact exec_quar hready (a := (s.goesQuarantined i .ordered).done .ok)
      ((if_pos hisolated).trans (by rw [State.enterQuarantined_eq])) (s.elapsed_goesQuarantined i .ordered) rfl
  · exact exec_quar hready (a := s.refuse .state) (if_neg hno) rfl rfl
  · exact exec_pwrOn hready ((s.doPwrOn_eq i).trans (if_neg fun h => hno.elim (· h.1) (· h.2))) rfl rfl
  · exact exec_pwrOn hready ((s.doPwrOn_eq i).trans (if_pos ⟨hstate, hlive⟩)) (s.elapsed_bringsUp i .command) rfl
  · exact exec_pwrOff hready (State.doPwrOff_refused hno) rfl rfl
  · exact exec_pwrOff hready (State.doPwrOff_of_rest hlive hstate) rfl rfl
  · exact exec_pwrOff hready (State.doPwrOff_of_isolated hlive hstate) (s.elapsed_discharges i _ _) rfl
  · intro t
    have hdone := State.doPwrOff_of_quarantined hlive hstate
    exact ⟨fun hpresent => exec_pwrOff hready (hdone.trans (by rw [if_pos hpresent])) rfl rfl,
      fun hpresent => exec_pwrOff hready (hdone.trans (by rw [if_neg (Bool.eq_false_iff.1 hpresent)])) rfl rfl⟩
  · exact exec_pwrOff hready (State.doPwrOff_of_attempt hlive hstate) (s.elapsed_abandons i .command) rfl

end Sys2Proof.Machine
end

section
/-! The requests that change the budget, the image and the pins (R131, R133 to R136, R138, R140 to R143, R174, R175, R191, R194). -/

namespace Sys2Proof.Machine

/-! ### The requests as commands -/

section
variable {s : State} {c : Instr} {i : SlotId} {r : BmcRequest} {a : Answer}

/-- R185: a part-wide request, carried out with a status. -/
theorem exec_partRequest (hreq : c.request = some (0xFF, r)) (hwf : c.wf = true) (hperform : s.perform 0xFF r = s.forPart 0xFF a)
    (hready : s.linkReady) (helapsed : a.after.elapsed = s.elapsed) (hpart : a.partReset = false) :
    exec c s = .next (a.after.answering (r.code + 0x80) a.status.code a.data) :=
  exec_answers hreq hwf hready (hperform.trans (if_pos rfl)) helapsed hpart

variable (hready : s.linkReady)
include hready

theorem exec_imgPut {o : BitVec 16} {v : Dword} {m : Byte} (ha : s.doImgPut i o v m = a)
    (helapsed : a.after.elapsed = s.elapsed) (hpart : a.partReset = false) :
    exec (.imgPut (slotByte i) o v m) s = .next (a.after.answering 0x8E a.status.code a.data) :=
  exec_slotRequest (r := .imgPut o v m) (fun i => s.doImgPut i o v m) rfl rfl rfl hready ha helapsed hpart

theorem exec_imgDrop (ha : s.doImgDrop i = a) (helapsed : a.after.elapsed = s.elapsed) (hpart : a.partReset = false) :
    exec (.imgDrop (slotByte i)) s = .next (a.after.answering 0x8F a.status.code a.data) :=
  exec_slotRequest (r := .imgDrop) s.doImgDrop rfl rfl rfl hready ha helapsed hpart

theorem exec_pinMode {m : Byte} (ha : s.doPinMode i m = a) (helapsed : a.after.elapsed = s.elapsed)
    (hpart : a.partReset = false) :
    exec (.pinMode (slotByte i) m) s = .next (a.after.answering 0x91 a.status.code a.data) :=
  exec_slotRequest (r := .pinMode m) (fun i => s.doPinMode i m) rfl rfl rfl hready ha helapsed hpart

theorem exec_pinLoad {p k c a' : Byte} (ha : s.doPinLoad i p k c a' = a) (helapsed : a.after.elapsed = s.elapsed)
    (hpart : a.partReset = false) :
    exec (.pinLoad (slotByte i) p k c a') s = .next (a.after.answering 0x92 a.status.code a.data) :=
  exec_slotRequest (r := .pinLoad p k c a') (fun i => s.doPinLoad i p k c a') rfl rfl rfl hready ha helapsed hpart

end

/-! ### The budget and the grant check -/

/-- R140: the two conditions of a grant. -/
theorem Arbiter.fits_iff (a : Arbiter) (p : Place) : a.fits p = true ↔ a.admits p := by
  rw [Arbiter.fits, Bool.and_eq_true, decide_eq_true_iff]
  simp [Arbiter.sum]

/-- R138: the budget taken. -/
theorem clamp_budget (b : Byte) : clamp 1 255 b.toNat = if b = 0 then 1 else b.toNat := by
  have hlt : b.toNat < 256 := b.isLt
  have hzero : b = 0 ↔ b.toNat = 0 := BitVec.toNat_inj.symm
  unfold clamp
  by_cases hb : b = 0
  · rw [if_pos hb, hzero.1 hb]
    rfl
  · have hpos : b.toNat ≠ 0 := fun h => hb (hzero.2 h)
    rw [if_neg hb, Nat.max_eq_left (by omega), Nat.min_eq_left (by omega)]

/-- R145: a quarantined slot leaves the queue; the rest stand in it as they did. -/
theorem State.queue_failsBudget {s : State} {i : SlotId} {rest : List Place} (hqueue : s.arbiter.queue = rest)
    (h : ∀ q ∈ rest, q.slot ≠ i) : (s.failsBudget i).arbiter.queue = rest := by
  have hkept : rest.filter (fun p => p.slot ≠ i) = rest := List.filter_eq_self.2 fun q hq => by simpa using h q hq
  rw [State.failsBudget, ← State.enterQuarantined_eq, State.enterQuarantined_queue]
  show dropPlace i s.arbiter.queue = rest
  rw [hqueue]
  exact hkept

/-- Settles O57: BUDGET.SET, and a grant check at its head. -/
theorem budgetSetRunsAGrantCheck : Obligations.BudgetSetRunsAGrantCheck := by
  refine ⟨fun s b hready => ?_, fun s => ⟨fun hempty => ?_, fun p rest hqueue hothers => ?_⟩⟩
  · have hexec := exec_partRequest (c := .budgetSet 0xFF b) (r := .budgetSet b) (a := s.doBudgetSet b) rfl rfl rfl hready
      (State.elapsed_grantCheck _) rfl
    rw [hexec]
    unfold State.doBudgetSet
    rw [clamp_budget]
    by_cases hb : b = 0
    · rw [if_pos hb, if_pos hb, if_pos hb]
      rfl
    · rw [if_neg hb, if_neg hb, if_neg hb]
      rfl
  · rw [State.grantCheck, hempty]
    rfl
  · intro t
    refine ⟨fun hlack => ?_, fun hfits => ⟨fun hadmits => ?_, fun hwaits => ?_⟩⟩
    · rw [State.grantCheck, hqueue, State.grantLoop, if_pos hlack, State.budgetFailure_eq, State.grantCheck,
        State.queue_failsBudget (s := t) rfl hothers]
    · rw [State.grantCheck, hqueue, State.grantLoop, if_neg hfits.not_gt, if_pos ((Arbiter.fits_iff _ _).2 hadmits)]
      exact congrArg (State.grantLoop rest) (t.enterRamping_eq p)
    · rw [State.grantCheck, hqueue, State.grantLoop, if_neg hfits.not_gt,
        if_neg fun h => hwaits ((Arbiter.fits_iff _ _).1 h)]

/-! ### The image -/

theorem SlotState.takesImage_iff (st : SlotState) :
    st.takesImage = true ↔ st = .off ∨ st = .isolated ∨ st = .quarantined := by
  cases st <;> simp [SlotState.takesImage]

/-- R134: the fields of IMG.PUT in range. -/
theorem imgFields_iff (o : BitVec 16) (m : Byte) :
    ¬ (o = 0 || 1023 < o.toNat || m = 0 || 15 < m.toNat : Bool) = true ↔
      1 ≤ o.toNat ∧ o.toNat ≤ 1023 ∧ 1 ≤ m.toNat ∧ m.toNat ≤ 15 := by
  have hoffset : o = 0 ↔ o.toNat = 0 := BitVec.toNat_inj.symm
  have hmask : m = 0 ↔ m.toNat = 0 := BitVec.toNat_inj.symm
  simp only [Bool.or_eq_true, decide_eq_true_eq, hoffset, hmask]
  omega

/-- R134: IMG.PUT by the state, the fields, the offset and the room. -/
theorem State.doImgPut_eq (s : State) (i : SlotId) (o : BitVec 16) (v : Dword) (m : Byte) :
    s.doImgPut i o v m =
      (let sl := s.slot i
      let offset : Offset := BitVec.ofNat 10 o.toNat
      let mask : ByteMask := BitVec.ofNat 4 m.toNat
      if sl.ctl.state = .off ∨ sl.ctl.state = .isolated ∨ sl.ctl.state = .quarantined then
        if 1 ≤ o.toNat ∧ o.toNat ≤ 1023 ∧ 1 ≤ m.toNat ∧ m.toNat ≤ 15 then
          if ∃ e ∈ sl.store.entries, e.offset = offset then
            (s.setSlot i { sl with store := sl.store.mergeAt offset v mask }).done .ok
          else if sl.store.entries.length < 48 then
            (s.setSlot i { sl with store := sl.store.append offset v mask }).done .ok
          else s.refuse .full
        else s.refuse .range
      else s.refuse .state) := by
  have hholds (o : Offset) : (s.slot i).store.holds o = true ↔ ∃ e ∈ (s.slot i).store.entries, e.offset = o := by
    simp [ImageStore.holds]
  simp only [State.doImgPut, BitVec.ofNat_toNat, hholds, ImageStore.hasRoom_iff, Bool.not_eq_true', State.modSlot]
  by_cases htaken : (s.slot i).ctl.state.takesImage = true
  · rw [if_neg (by simp [htaken]), if_pos ((SlotState.takesImage_iff _).1 htaken)]
    by_cases hfields : 1 ≤ o.toNat ∧ o.toNat ≤ 1023 ∧ 1 ≤ m.toNat ∧ m.toNat ≤ 15
    · rw [if_neg ((imgFields_iff o m).2 hfields), if_pos hfields]
    · rw [if_pos (not_not.1 fun h => hfields ((imgFields_iff o m).1 h)), if_neg hfields]
  · rw [if_pos (by simpa using htaken), if_neg fun h => htaken ((SlotState.takesImage_iff _).2 h)]

/-- R131, R136: IMG.DROP, and what it does to a replay. -/
theorem State.dropImage_eq (s : State) (i : SlotId) :
    s.dropImage i =
      if (s.slot i).ctl.state = .restoring ∧ (s.slot i).store.outstanding = none then
        (s.setSlot i
          { s.slot i with store := { (s.slot i).store.stopped with entries := [], incomplete := false } }).goesOnline i
      else s.setSlot i
        { s.slot i with store.entries := [], store.incomplete := false, store.sequence := [] } := by
  rw [State.dropImage, State.replayCleared_eq, State.slot_modSlot_self, State.modSlot, State.setSlot_setSlot]
  rfl

/-- Settles O58: IMG.PUT and IMG.DROP. -/
theorem imageRequestsChangeTheImage : Obligations.ImageRequestsChangeTheImage := by
  intro s i o v m hready sl taken fields offset mask done
  have hput := s.doImgPut_eq i o v m
  have hdrop : s.doImgDrop i = (s.dropImage i).done .ok := rfl
  rw [State.dropImage_eq] at hdrop
  dsimp only at hput
  refine ⟨fun hno => ?_, fun htaken hno => ?_, fun htaken hfields => ⟨fun hheld => ?_, fun hnew => ⟨fun hroom => ?_,
    fun hfull => ?_⟩⟩, fun hno => ?_, fun hrestoring hout => ?_⟩
  · exact exec_imgPut hready (hput.trans (if_neg hno)) rfl rfl
  · exact exec_imgPut hready (hput.trans ((if_pos htaken).trans (if_neg hno))) rfl rfl
  · rw [if_pos htaken, if_pos hfields, if_pos hheld] at hput
    exact exec_imgPut hready hput rfl rfl
  · rw [if_pos htaken, if_pos hfields, if_neg fun ⟨e, he, ho⟩ => hnew e he ho, if_pos hroom] at hput
    exact exec_imgPut hready hput rfl rfl
  · rw [if_pos htaken, if_pos hfields, if_neg fun ⟨e, he, ho⟩ => hnew e he ho, if_neg hfull.not_gt] at hput
    exact exec_imgPut hready hput rfl rfl
  · rw [if_neg fun h => hno.elim (· h.1) (· h.2)] at hdrop
    exact exec_imgDrop hready hdrop rfl rfl
  · rw [if_pos ⟨hrestoring, hout⟩] at hdrop
    exact exec_imgDrop hready hdrop (State.elapsed_goesOnline _ i) rfl

/-! ### The pins -/

/-- R81, R174, R177: a change of the pin mode, with the decision timer of a stay in ISOLATED under ASK. -/
theorem State.setPinMode_eq (s : State) (i : SlotId) (m : PinMode) :
    s.setPinMode i m = s.moved i
      { s.slot i with
        pins.mode := m
        ctl.decisionTimer :=
          if (s.slot i).ctl.state = .isolated ∧ (s.slot i).ctl.isoPolicy = some .ask then
            if m = .live then .running (s.now + BitVec.ofNat 32 (1000 * (s.slot i).policy.decisionTime)) else .suspended
          else (s.slot i).ctl.decisionTimer } := by
  have hstate := s.moved_state i { s.slot i with pins.mode := m }
  have hpolicy := s.moved_isoPolicy i { s.slot i with pins.mode := m }
  unfold State.setPinMode State.when
  dsimp only
  rw [State.drive_eq_moved, hstate, hpolicy]
  by_cases hasking : (s.slot i).ctl.state = .isolated ∧ (s.slot i).ctl.isoPolicy = some .ask
  · rw [if_pos (by simp [hasking])]
    simp only [if_pos hasking]
    exact s.modSlot_moved_ctl i { s.slot i with pins.mode := m }
      (fun c => { c with
        decisionTimer :=
          if m = .live then .running (s.now + BitVec.ofNat 32 (1000 * (s.slot i).policy.decisionTime)) else .suspended })
      (fun sl hsl => by rw [hsl]; rfl) (fun _ _ _ => rfl) rfl rfl
  · rw [if_neg (by simpa using hasking)]
    simp only [if_neg hasking]

/-- The mode codes (section 10.3). -/
theorem PinMode.ofCode_eq (x : Byte) :
    PinMode.ofCode x = if 2 < x.toNat then none else some (if x = 0 then .live else if x = 1 then .hold else .float) := by
  revert x
  decide

/-- R174: the states in which a mode is taken. -/
theorem SlotState.takesMode_iff (st : SlotState) (m : PinMode) :
    st.takesMode m = true ↔ m = .live ∨ (st = .empty ∨ st = .off ∨ st = .quarantined) ∨ (m = .hold ∧ st = .isolated) := by
  cases m <;> cases st <;> decide

theorem State.doPinMode_eq (s : State) (i : SlotId) {x : Byte} (hx : x.toNat ≤ 2) :
    s.doPinMode i x =
      (let m := if x = 0 then PinMode.live else if x = 1 then .hold else .float
      if m = (s.slot i).pins.mode then s.done .ok
      else if m = .live ∨ ((s.slot i).ctl.state = .empty ∨ (s.slot i).ctl.state = .off ∨ (s.slot i).ctl.state = .quarantined)
          ∨ (m = .hold ∧ (s.slot i).ctl.state = .isolated) then (s.setPinMode i m).done .ok
      else s.refuse .state) := by
  simp only [State.doPinMode, PinMode.ofCode_eq, if_neg hx.not_gt, SlotState.takesMode_iff, eq_comm (a := (s.slot i).pins.mode)]

theorem switchOf_eq (b : Byte) : switchOf b = if 1 < b.toNat then none else some (decide (b = 1)) := by
  revert b
  decide

theorem Attn.ofCode_eq (b : Byte) :
    Attn.ofCode b = if 2 < b.toNat then none else some (if b = 0 then .off else if b = 1 then .on else .blink) := by
  revert b
  decide

/-- R175: the four levels of PIN.LOAD. -/
theorem readLevels_eq (p k c a : Byte) :
    readLevels p k c a =
      if 1 < p.toNat ∨ 1 < k.toNat ∨ 1 < c.toNat ∨ 2 < a.toNat then none
      else some
        { pwren := p = 1, clken := k = 1, crst := c = 1
          attn := if a = 0 then .off else if a = 1 then .on else .blink } := by
  rw [readLevels, switchOf_eq, switchOf_eq, switchOf_eq, Attn.ofCode_eq]
  by_cases hp : 1 < p.toNat <;> by_cases hk : 1 < k.toNat <;> by_cases hc : 1 < c.toNat <;> by_cases ha : 2 < a.toNat <;>
    simp [hp, hk, hc, ha]

/-- R194: PART.RESET's reply is marked, and nothing else changes. -/
theorem exec_partReset {s : State} (hready : s.linkReady) :
    exec (.partReset 0xFF) s = .next
      { s.answering 0x96 0x00 [] with
        link.inProcess := (s.answering 0x96 0x00 []).link.inProcess.map fun p => { p with partReset := true } } := by
  rw [exec_of_linkReady (r := .partReset) rfl rfl hready, State.takeRequest]
  have hflags := s.replyFlags_eq
  simp only [State.perform, State.forPart, if_true, State.doPartReset, State.reply, State.answering, hflags,
    Nat.max_eq_right (Nat.le_add_right _ _)]
  rfl

/-- Settles O59: PIN.MODE, PIN.LOAD and PART.RESET. -/
theorem pinRequestsActOnThePins : Obligations.PinRequestsActOnThePins := by
  intro s i hready sl asking mode allowed
  refine ⟨fun x hx => ?_, fun x hx => ?_, fun p k c a hwrong => ?_, fun p k c a hp hk hc ha => ?_, exec_partReset hready⟩
  · have hrefused : s.doPinMode i x = s.refuse .range := by rw [State.doPinMode, PinMode.ofCode_eq, if_pos hx]
    exact exec_pinMode hready hrefused rfl rfl
  · have hdone : s.doPinMode i x =
        if mode x = sl.pins.mode then s.done .ok
        else if allowed (mode x) then (s.setPinMode i (mode x)).done .ok else s.refuse .state := s.doPinMode_eq i hx
    rw [State.setPinMode_eq] at hdone
    refine ⟨fun hsame => ?_, fun hchange => ⟨fun hno => ?_, fun hallowed hask => ?_, fun hallowed hask => ?_⟩⟩
    · exact exec_pinMode hready (hdone.trans (if_pos hsame)) rfl rfl
    · exact exec_pinMode hready (hdone.trans ((if_neg hchange).trans (if_neg hno))) rfl rfl
    · rw [if_neg hchange, if_pos hallowed, if_neg hask] at hdone
      exact exec_pinMode hready hdone rfl rfl
    · rw [if_neg hchange, if_pos hallowed, if_pos hask] at hdone
      exact exec_pinMode hready hdone rfl rfl
  · have hrefused : s.doPinLoad i p k c a = s.refuse .range := by
      simp only [State.doPinLoad, readLevels_eq, if_pos hwrong]
    exact exec_pinLoad hready hrefused rfl rfl
  · have hright : ¬ (1 < p.toNat ∨ 1 < k.toNat ∨ 1 < c.toNat ∨ 2 < a.toNat) := by omega
    have hdone : s.doPinLoad i p k c a = (s.moved i
        { s.slot i with
          pins.held :=
            { pwren := p = 1, clken := k = 1, crst := c = 1
              attn := if a = 0 then .off else if a = 1 then .on else .blink } }).done .ok := by
      simp only [State.doPinLoad, readLevels_eq, if_neg hright, State.drive_eq_moved]
    exact exec_pinLoad hready hdone rfl rfl

end Sys2Proof.Machine
end

section
/-! O23: the offer of a freed entry passes over the slots that cannot take it and ends at the first that can. -/
namespace Sys2Proof.Machine

/-- R26, log 10: the slots of `pre` are asked in vain: one that may not proceed keeps its place on the pool wait list, one at
its quota leaves it. -/
def State.passedOver (s : State) (pre : List SlotId) : State :=
  { s with poolWait := s.poolWait.filter fun k => ¬ (k ∈ pre ∧ (s.slot k).serving ∧ (s.slot k).chan.linkUp = true) }

/-- R24, R26: slot `k` has nothing to take the entry with: it may not proceed, or its held request meets no collision and finds the quota
reached. -/
def State.Declines (s : State) (k : SlotId) : Prop :=
  ¬ ((s.slot k).serving ∧ (s.slot k).chan.linkUp = true)
  ∨ (∃ h, ((s.slot k).serving ∧ (s.slot k).chan.linkUp = true) ∧ (s.slot k).chan.hold = some h ∧ h.req.posted = false
      ∧ ∀ x ∈ (s.slot k).entries, x.tag ≠ h.req.tag) ∧ (s.slot k).policy.quota ≤ (s.slot k).entries.length

theorem State.passedOver_nil (s : State) : s.passedOver [] = s := by
  simp [State.passedOver]

theorem State.passedOver_cons (s : State) (k : SlotId) (pre : List SlotId) :
    (s.passedOver [k]).passedOver pre = s.passedOver (k :: pre) := by
  have hpred : ∀ j : SlotId, (decide ¬ (j ∈ pre ∧ (s.slot j).serving ∧ (s.slot j).chan.linkUp = true)
      && decide ¬ (j ∈ [k] ∧ (s.slot j).serving ∧ (s.slot j).chan.linkUp = true)) =
      decide ¬ (j ∈ k :: pre ∧ (s.slot j).serving ∧ (s.slot j).chan.linkUp = true) := by
    intro j
    rw [← Bool.decide_and, decide_eq_decide]
    simp only [List.mem_cons, List.not_mem_nil, or_false]
    tauto
  show { s with poolWait := List.filter _ (List.filter _ s.poolWait) } = ({ s with poolWait := List.filter _ s.poolWait } : State)
  rw [List.filter_filter]
  exact congrArg (fun p => { s with poolWait := s.poolWait.filter p }) (funext hpred)

/-- A re-offer to a slot that has nothing to take the entry with changes at most its place on the list. -/
theorem State.reoffersHold_declined {s : State} {k : SlotId} (hk : s.Declines k) : s.reoffersHold k = s.passedOver [k] := by
  obtain hstays | ⟨⟨h, hproceeds, hhold, hposted, hfresh⟩, hquota⟩ := hk
  · have hkept : s.passedOver [k] = s := by
      have hall : ∀ j ∈ s.poolWait,
          (decide ¬ (j ∈ [k] ∧ (s.slot j).serving ∧ (s.slot j).chan.linkUp = true)) = true := fun j _ =>
        decide_eq_true fun ⟨hj, hproceeds⟩ => hstays (List.mem_singleton.1 hj ▸ hproceeds)
      simp only [State.passedOver, List.filter_eq_self.2 hall]
    rw [hkept, State.reoffersHold]
    split
    · exact if_neg hstays
    · rfl
  · have haway : s.reoffersHold k = { s with poolWait := s.poolWait.filter fun j => j ≠ k } := by
      simp only [State.reoffersHold, hhold, if_pos hproceeds, State.reoffers, hposted, Bool.false_eq_true, if_false]
      rw [if_neg fun ⟨x, hx, htag⟩ => hfresh x hx htag, if_pos hquota]
    have hpred : ∀ j : SlotId, decide (j ≠ k) =
        (decide ¬ (j ∈ [k] ∧ (s.slot j).serving ∧ (s.slot j).chan.linkUp = true)) := by
      intro j
      rw [decide_eq_decide, List.mem_singleton]
      exact not_congr ⟨fun hj => ⟨hj, hj ▸ hproceeds⟩, fun hj => hj.1⟩
    rw [haway]
    exact congrArg (fun p => { s with poolWait := s.poolWait.filter p }) (funext hpred)

theorem State.offersAlong_declined (pre rest : List SlotId) :
    ∀ s : State, (∀ k ∈ pre, s.Declines k) →
      State.offersAlong (pre ++ rest) s = State.offersAlong rest (s.passedOver pre) := by
  induction pre with
  | nil => exact fun s _ => by rw [s.passedOver_nil, List.nil_append]
  | cons k pre ih =>
    intro s hdeclines
    have hkept : ¬ (s.passedOver [k]).poolFree < s.poolFree := Nat.lt_irrefl _
    rw [List.cons_append, State.offersAlong, State.reoffersHold_declined (hdeclines k (List.mem_cons_self ..)), if_neg hkept,
      ih (s.passedOver [k]) fun j hj => hdeclines j (List.mem_cons_of_mem _ hj), s.passedOver_cons]

/-- R20: one more entry in a slot is one place less in the pool. -/
theorem State.poolFree_setSlot_lt {s : State} {i : SlotId} {x : Slot} (hmore : (s.slot i).entries.length < x.entries.length)
    (hfree : 0 < s.poolFree) : (s.setSlot i x).poolFree < s.poolFree := by
  have hsum : ∑ j, (s.slot j).entries.length < ∑ j, ((s.setSlot i x).slot j).entries.length := by
    refine Finset.sum_lt_sum (fun j _ => ?_) ⟨i, Finset.mem_univ i, by rwa [State.slot_setSlot_self]⟩
    rw [State.slot_setSlot]
    split
    · next hj => exact hj ▸ hmore.le
    · exact le_rfl
  rw [← State.total_eq_sum, ← State.total_eq_sum] at hsum
  unfold State.poolFree Config.poolSize at *
  omega

/-- R26: the held request leaves the hold, goes to the card and has an entry with the arrival time and the deadline it has. -/
def Slot.admits (sl : Slot) (h : Held) : Slot :=
  { sl.tellsCard (.request .host h.req) with
    chan.hold := none
    entries := sl.entries ++
      [{ tag := h.req.tag
         kind := h.req.kind.entryKind.1
         owed := h.req.kind.entryKind.2
         delivered := 0
         arrival := h.arrival
         deadline := h.deadline }] }

/-- R26: a held request below its quota, that meets no collision, takes the freed entry, and nobody behind it is asked. -/
theorem State.offersAlong_taken {s : State} {j : SlotId} {h : Held} {behind : List SlotId}
    (hproceeds : (s.slot j).serving ∧ (s.slot j).chan.linkUp = true) (hhold : (s.slot j).chan.hold = some h)
    (hposted : h.req.posted = false) (hfresh : ∀ x ∈ (s.slot j).entries, x.tag ≠ h.req.tag)
    (hquota : (s.slot j).entries.length < (s.slot j).policy.quota) (hfree : 0 < s.poolFree) :
    State.offersAlong (j :: behind) s =
      ({ s with poolWait := s.poolWait.filter fun k => k ≠ j } : State).setSlot j
        ((s.slot j).admits h) := by
  have htakes : s.reoffersHold j = ({ s with poolWait := s.poolWait.filter fun k => k ≠ j } : State).setSlot j
      ((s.slot j).admits h) := by
    simp only [State.reoffersHold, hhold, if_pos hproceeds, State.reoffers, hposted, Bool.false_eq_true, if_false]
    rw [if_neg fun ⟨x, hx, htag⟩ => hfresh x hx htag, if_neg (Nat.not_le.2 hquota), if_neg hfree.ne']
    rfl
  rw [State.offersAlong, htakes, if_pos]
  exact State.poolFree_setSlot_lt (s := { s with poolWait := s.poolWait.filter fun k => k ≠ j })
    (by simp [Slot.admits, State.slot]) hfree

/-- R26: the offer ends with nobody to take the entry, or at the first slot that takes it. -/
theorem offersAlong_ends {freed t : State} {pre rest : List SlotId} (hwait : freed.poolWait = pre ++ rest)
    (hdeclines : ∀ k ∈ pre, freed.Declines k)
    (hends : rest = [] ∧ t = { freed with
        poolWait := pre.filter fun k => ¬ ((freed.slot k).serving ∧ (freed.slot k).chan.linkUp = true) }
      ∨ ∃ (j : SlotId) (h : Held) (behind : List SlotId), rest = j :: behind
          ∧ (((freed.slot j).serving ∧ (freed.slot j).chan.linkUp = true) ∧ (freed.slot j).chan.hold = some h
            ∧ h.req.posted = false ∧ ∀ x ∈ (freed.slot j).entries, x.tag ≠ h.req.tag)
          ∧ (freed.slot j).entries.length < (freed.slot j).policy.quota ∧ 0 < freed.poolFree
          ∧ t = ({ freed with
                poolWait := freed.poolWait.filter fun k =>
                  k ≠ j ∧ ¬ (k ∈ pre ∧ (freed.slot k).serving ∧ (freed.slot k).chan.linkUp = true) } : State).setSlot j
              ((freed.slot j).admits h)) :
    State.offersAlong freed.poolWait freed = t := by
  rw [hwait, State.offersAlong_declined pre rest freed hdeclines]
  obtain ⟨rfl, rfl⟩ | ⟨j, h, behind, rfl, ⟨hproceeds, hhold, hposted, hfresh⟩, hquota, hfree, rfl⟩ := hends
  · have hpre : freed.poolWait.filter (fun k => ¬ (k ∈ pre ∧ (freed.slot k).serving ∧ (freed.slot k).chan.linkUp = true)) =
        pre.filter fun k => ¬ ((freed.slot k).serving ∧ (freed.slot k).chan.linkUp = true) := by
      rw [hwait, List.append_nil]
      exact List.filter_congr fun k hk => by simp only [hk, true_and]
    simp only [State.offersAlong, State.passedOver, hpre]
  · rw [State.offersAlong_taken (s := freed.passedOver pre) hproceeds hhold hposted hfresh hquota hfree]
    have hwaits : (freed.passedOver pre).poolWait.filter (fun k => decide (k ≠ j)) = freed.poolWait.filter fun k =>
        k ≠ j ∧ ¬ (k ∈ pre ∧ (freed.slot k).serving ∧ (freed.slot k).chan.linkUp = true) := by
      show (freed.poolWait.filter _).filter _ = _
      rw [List.filter_filter]
      exact List.filter_congr fun k _ => (Bool.decide_and ..).symm
    rw [hwaits]
    rfl

/-- R63: what a freed last entry of a slot in FENCING leads to; the entry of a slot in service leads to nothing more. -/
theorem frees_serving (s : State) (i : SlotId) (left : Slot) (hctl : left.ctl = (s.slot i).ctl) :
    ((s.frees i left).slot i).serving ↔ (s.slot i).serving := by
  have hkept := (s.frees_spares i left i).2.2
  rw [State.slot_setSlot_self, hctl] at hkept
  unfold Slot.serving
  rw [hkept]

/-- Settles O23: `offersAlong_ends` says who takes the freed entry; the completions and the deadlines free it by `matchCompletion_ends`
and `entryExpiry_eq`. -/
theorem freedEntryGoesToTheWaitingSlot : Obligations.FreedEntryGoesToTheWaitingSlot := by
  intro s t i left pre rest freed mayProceed waits hwait hdeclines hends own
  have hfrees : s.frees i left = own := by
    have ht : State.offersAlong s.poolWait freed = t := offersAlong_ends (freed := freed) hwait hdeclines hends
    show (if i ∈ (State.offersAlong s.poolWait freed).poolWait then State.offersAlong s.poolWait freed
      else (State.offersAlong s.poolWait freed).reoffersHold i) = own
    rw [ht]
  refine ⟨hfrees, fun e before after hpor hmatches hentries hbefore => ?_⟩
  intro last
  refine ⟨fun c hwf hup htag hended hleft => ?_, fun hdue hleft => ?_⟩
  · rw [exec_cardCompletion i .host hwf hpor, State.cardCompletion_host c hup hmatches,
      State.matchCompletion_ends hentries hbefore htag hended, ← hleft, hfrees]
  · have hexec : exec (.entryExpiry i e.tag) s = .next (s.entryExpiry i e.tag) := next_running _ hpor
    rw [hexec, State.entryExpiry_eq hentries hbefore hdue, ← hleft, hfrees]
    by_cases hlast : last
    · rw [if_pos hlast, if_pos hlast]
    · rw [if_neg hlast, if_neg hlast]
      split
      · rfl
      · next hout =>
        rw [State.weighs_of_not_serving]
        rw [← hfrees, frees_serving s i left (by rw [hleft]; rfl)]
        exact hout

end Sys2Proof.Machine
end

section
/-! O37: what an emptied hold leaves on the slot's host side, and that what follows a fence or an abandoned attempt keeps it (R11, R62, R70,
R89, R91). -/
namespace Sys2Proof.Machine

/-! ### The host side of a slot -/

/-- What an answer to a held request of the host reads and writes: the hold, the host-side outputs, the two counters, the identity, the
image and the policy. -/
abbrev Slot.hostSide (sl : Slot) : Option Held × List HostOut × Nat × Nat × Option Dword × ImageStore × Policy :=
  (sl.chan.hold, sl.chan.hostOut, sl.chan.absorbed, sl.chan.dropped, sl.chan.identity, sl.store, sl.policy)

/-- The slot after it absorbs a request with no tag pending (R68 to R70, R121, R122). -/
def Slot.absorbing (sl : Slot) (filter : List Span) (r : Request) : Slot :=
  let answered := fun (x : Slot) (c : Completion) => (x.tellsHost (.completion c)).absorbedOne
  match r.kind with
  | .memWrite _ _ => sl.droppedOne
  | .message => sl.droppedOne
  | .cfgRead o => answered sl { tag := r.tag, status := .success, data := [sl.configRead o], final := true }
  | .cfgWrite o m d =>
    answered { sl with store := (sl.store.record filter o d m).1 }
      (Completion.bare r.tag (if (sl.store.record filter o d m).2 = true then .success else .abort))
  | k => answered sl (fillCompletion sl.policy.fill r.tag k.fillDwords)

/-- A request meets a tag collision as it is absorbed (R70). -/
abbrev Slot.Refuses (sl : Slot) (r : Request) : Prop :=
  sl.ctl.state = .fencing ∧ r.posted = false ∧ ∃ e ∈ sl.entries, e.tag = r.tag

theorem State.absorbs_of_fresh {s : State} {i : SlotId} {r : Request} (hfresh : ¬ (s.slot i).Refuses r) :
    s.absorbs i r = s.setSlot i ((s.slot i).absorbing s.filter r) := by
  rw [State.absorbs, if_neg hfresh]
  unfold Slot.absorbing
  cases r.kind <;> rfl

/-- Absorption reads and writes the host side only. -/
theorem Slot.absorbing_hostSide_congr {x y : Slot} (filter : List Span) (r : Request) (h : x.hostSide = y.hostSide) :
    (x.absorbing filter r).hostSide = (y.absorbing filter r).hostSide := by
  simp only [Slot.hostSide, Prod.mk.injEq] at h ⊢
  obtain ⟨hhold, hout, habsorbed, hdropped, hidentity, hstore, hpolicy⟩ := h
  unfold Slot.absorbing
  cases r.kind <;>
    simp [Slot.tellsHost, Slot.absorbedOne, Slot.droppedOne, Slot.configRead, hhold, hout, habsorbed, hdropped, hidentity,
      hstore, hpolicy]

/-- What the held request of the host leaves, by its kind: the statement's own list. -/
theorem Slot.absorbing_taken (sl : Slot) {x : Slot} {filter : List Span} {st : ImageStore} {h : Held}
    (hstop : ∀ o, ({ sl with store := st } : Slot).configRead o = sl.configRead o)
    (hx : x.hostSide = (({ sl with chan.hold := none, store := st } : Slot).absorbing filter h.req).hostSide) :
    let ch := x.chan
    let counted := ch.absorbed = min (sl.chan.absorbed + 1) 4294967295 ∧ ch.dropped = sl.chan.dropped
    let answered := fun c : Completion => ch.hostOut = sl.chan.hostOut ++ [.completion c] ∧ counted
    ch.hold = none
    ∧ (h.req.posted = true → ch.hostOut = sl.chan.hostOut ∧ ch.absorbed = sl.chan.absorbed
        ∧ ch.dropped = min (sl.chan.dropped + 1) 4294967295 ∧ x.store = st)
    ∧ (∀ a n, h.req.kind = .memRead a n → answered (fillCompletion sl.policy.fill h.req.tag n) ∧ x.store = st)
    ∧ (∀ a, h.req.kind = .ioRead a → answered (fillCompletion sl.policy.fill h.req.tag 1) ∧ x.store = st)
    ∧ (∀ a m d, h.req.kind = .ioWrite a m d → answered (fillCompletion sl.policy.fill h.req.tag 0) ∧ x.store = st)
    ∧ (∀ o, h.req.kind = .cfgRead o →
        answered { tag := h.req.tag, status := .success, data := [sl.configRead o], final := true } ∧ x.store = st)
    ∧ ∀ o m d, h.req.kind = .cfgWrite o m d →
        answered (Completion.bare h.req.tag (if (st.record filter o d m).2 = true then .success else .abort))
          ∧ x.store = (st.record filter o d m).1 := by
  have hread : ∀ o, ({ sl with chan.hold := none, store := st } : Slot).configRead o = sl.configRead o := hstop
  simp only [Slot.hostSide, Prod.mk.injEq] at hx
  obtain ⟨hhold, hout, habsorbed, hdropped, -, hstore, -⟩ := hx
  intro ch counted answered
  simp only [counted, answered, ch, hhold, hout, habsorbed, hdropped, hstore]
  unfold Slot.absorbing
  cases hkind : h.req.kind <;>
    simp [Slot.tellsHost, Slot.absorbedOne, Slot.droppedOne, Request.posted, hkind, hread, TxKind.fillDwords]

/-! ### The holds emptied -/

section
variable {s : State} {i : SlotId} {h : Held}

/-- The part with slot `i` off the pool wait list and its hold empty (R11, R25). -/
abbrev State.unheld (s : State) (i : SlotId) : State :=
  ({ s with poolWait := s.poolWait.filter fun j => j ≠ i } : State).setSlot i { s.slot i with chan.hold := none }

theorem State.absorbsHold_none (hhold : (s.slot i).chan.hold = none) : s.absorbsHold i = s := by
  rw [State.absorbsHold, hhold]

theorem State.absorbsHold_some (hhold : (s.slot i).chan.hold = some h) :
    s.absorbsHold i = (s.unheld i).absorbs i h.req := by
  rw [State.absorbsHold, hhold]

theorem State.absorbsHold_of_fresh (hhold : (s.slot i).chan.hold = some h) (hfresh : ¬ (s.slot i).Refuses h.req) :
    s.absorbsHold i = ({ s with poolWait := s.poolWait.filter fun j => j ≠ i } : State).setSlot i
      (({ s.slot i with chan.hold := none } : Slot).absorbing s.filter h.req) := by
  rw [State.absorbsHold_some hhold, State.absorbs_of_fresh, State.slot_setSlot_self, State.setSlot_setSlot]
  · rfl
  · rw [State.slot_setSlot_self]
    exact hfresh

theorem State.absorbsHold_of_pending (hhold : (s.slot i).chan.hold = some h) (hpending : (s.slot i).Refuses h.req) :
    (s.absorbsHold i).slot i =
        { (s.slot i).tellsHost (.completion (Completion.bare h.req.tag .abort)) with chan.hold := none }
      ∧ (s.absorbsHold i).poolWait = s.poolWait.filter fun j => j ≠ i := by
  obtain ⟨hstate, hposted, htag⟩ := hpending
  rw [State.absorbsHold_some hhold, State.absorbs_of_pending]
  · rw [State.slot_setSlot_self]
    exact ⟨State.slot_setSlot_self .., rfl⟩
  · rw [State.slot_setSlot_self]
    exact hstate
  · exact hposted
  · rw [State.slot_setSlot_self]
    exact htag

/-- The slot with its card-side hold emptied as the gate closes (R11, R71). -/
def Slot.blocking (sl : Slot) : Slot :=
  match sl.chan.cardHold with
  | none => sl
  | some r =>
    if r.posted = true then { sl with chan.cardHold := none }
    else ({ sl with chan.cardHold := none } : Slot).tellsCard (.completion (Completion.bare r.tag .unsupported))

theorem State.blocksHold_eq (s : State) (i : SlotId) : s.blocksHold i = s.setSlot i (s.slot i).blocking := by
  unfold State.blocksHold Slot.blocking
  cases (s.slot i).chan.cardHold with
  | none => exact (s.setSlot_slot i).symm
  | some r => rfl

theorem Slot.blocking_keeps (sl : Slot) :
    sl.blocking.hostSide = sl.hostSide ∧ sl.blocking.chan.gateOpen = sl.chan.gateOpen ∧ sl.blocking.chan.cardHold = none := by
  unfold Slot.blocking
  split
  · next hnone => exact ⟨rfl, rfl, hnone⟩
  · split <;> exact ⟨rfl, rfl, rfl⟩

theorem Slot.blocking_cardOut (sl : Slot) :
    (sl.chan.cardHold = none → sl.blocking.chan.cardOut = sl.chan.cardOut)
    ∧ ∀ r, sl.chan.cardHold = some r → sl.blocking.chan.cardOut = sl.chan.cardOut ++
        (if r.posted = true then [] else [.completion (Completion.bare r.tag .unsupported)]) := by
  refine ⟨fun hnone => by rw [Slot.blocking, hnone], fun r hr => ?_⟩
  simp only [Slot.blocking, hr]
  split
  · exact (List.append_nil _).symm
  · rfl

theorem Slot.absorbing_card (sl : Slot) (filter : List Span) (r : Request) :
    (sl.absorbing filter r).chan.cardOut = sl.chan.cardOut
      ∧ (sl.absorbing filter r).chan.cardHold = sl.chan.cardHold
      ∧ (sl.absorbing filter r).chan.gateOpen = sl.chan.gateOpen := by
  unfold Slot.absorbing
  cases r.kind <;> exact ⟨rfl, rfl, rfl⟩

/-- R11: what stands in the downstream hold has nothing to do with the card's side. -/
theorem State.absorbsHold_card (s : State) (i : SlotId) :
    ((s.absorbsHold i).slot i).chan.cardOut = (s.slot i).chan.cardOut
      ∧ ((s.absorbsHold i).slot i).chan.cardHold = (s.slot i).chan.cardHold
      ∧ ((s.absorbsHold i).slot i).chan.gateOpen = (s.slot i).chan.gateOpen := by
  cases hhold : (s.slot i).chan.hold with
  | none => rw [State.absorbsHold_none hhold]; exact ⟨rfl, rfl, rfl⟩
  | some h =>
    by_cases hrefused : (s.slot i).Refuses h.req
    · rw [(State.absorbsHold_of_pending hhold hrefused).1]
      exact ⟨rfl, rfl, rfl⟩
    · rw [State.absorbsHold_of_fresh hhold hrefused, State.slot_setSlot_self]
      exact Slot.absorbing_card _ _ _

end

/-- Entry to FENCING before the holds are emptied (R62). -/
def State.atFencing (s : State) (i : SlotId) (reason : Reason) (disposition : Disposition) : State :=
  let sl := s.slot i
  s.moved i
    { sl with
      chan.gateOpen := false
      ctl :=
        { sl.ctl.into .fencing with
          reason := some reason, disposition := some disposition
          powerCut := sl.ctl.powerCut || decide (reason = .overcurrent)
          drainTimer := some (s.now + BitVec.ofNat 32 (if reason = .removed then 0 else sl.policy.drain)) }
      outbound := { tags := sl.outbound.tags.map fun t => { t with ghost := true }, deadline := none } }

section
variable (s : State) (i : SlotId) (r : Reason) (d : Disposition)

theorem State.moved_disposition (x : Slot) : ((s.moved i x).slot i).ctl.disposition = x.ctl.disposition := by
  rw [State.moved_slot]
  dsimp only
  split <;> rfl

theorem State.atFencing_slot :
    let m := s.atFencing i r d
    (m.slot i).hostSide = (s.slot i).hostSide ∧ (m.slot i).chan = { (s.slot i).chan with gateOpen := false }
      ∧ (m.slot i).entries = (s.slot i).entries ∧ (m.slot i).ctl.state = .fencing
      ∧ (m.slot i).ctl.reason = some r ∧ (m.slot i).ctl.disposition = some d := by
  intro m
  refine ⟨?_, State.moved_chan _ _ _, State.moved_entries _ _ _, State.moved_state _ _ _, State.moved_reason _ _ _,
    State.moved_disposition _ _ _⟩
  simp only [m, State.atFencing, Slot.hostSide, State.moved_chan, State.moved_store, State.moved_policy]

/-- R11, R62: what an entry to FENCING leaves of the slot, its holds emptied after the entry. -/
theorem State.goesFencing_slot :
    let emptied := ((s.atFencing i r d).absorbsHold i).slot i
    (s.goesFencing i r d).slot i = { emptied.blocking with ctl.lastReported := .fencing }
      ∧ (s.goesFencing i r d).poolWait = ((s.atFencing i r d).absorbsHold i).poolWait := by
  have heq : s.goesFencing i r d =
      ((((s.atFencing i r d).absorbsHold i).blocksHold i).setSlot i
        { (((s.atFencing i r d).absorbsHold i).blocksHold i).slot i with ctl.lastReported := .fencing }).reporting
          (s.stateNote i .fencing (some r) (some (s.slot i).ctl.score)) := rfl
  rw [heq, State.blocksHold_eq, State.slot_setSlot_self, State.setSlot_setSlot]
  exact ⟨State.slot_setSlot_self .., rfl⟩

theorem State.goesFencing_others : OthersKept i s (s.goesFencing i r d) := by
  intro j hj
  have hemptied := (State.absorbsHold_spares (s.atFencing i r d) i).trans (State.blocksHold_spares _ i)
  calc (s.goesFencing i r d).slot j
      = (((s.atFencing i r d).absorbsHold i).blocksHold i).slot j := State.slot_setSlot_of_ne _ _ hj
    _ = (s.atFencing i r d).slot j := hemptied.others j hj
    _ = s.slot j := State.moved_slot_of_ne _ _ hj

theorem State.goesFencing_ctl :
    ((s.goesFencing i r d).slot i).ctl.reason = some r ∧ ((s.goesFencing i r d).slot i).ctl.disposition = some d := by
  obtain ⟨-, -, -, -, hreason, hdisposition⟩ := s.atFencing_slot i r d
  have hctl := ((s.atFencing i r d).absorbsHold_spares i).ctl
  have hblocking : (((s.atFencing i r d).absorbsHold i).slot i).blocking.ctl = (((s.atFencing i r d).absorbsHold i).slot i).ctl := by
    unfold Slot.blocking
    split
    · rfl
    · split <;> rfl
  rw [(s.goesFencing_slot i r d).1]
  dsimp only
  rw [hblocking, hctl]
  exact ⟨hreason, hdisposition⟩

end

/-! ### What keeps the host side -/

/-- Slot `i`'s host side, the pool wait list and the forwarding filter stand. -/
structure State.KeepsSide (i : SlotId) (s t : State) : Prop where
  side : (t.slot i).hostSide = (s.slot i).hostSide
  poolWait : t.poolWait = s.poolWait
  filter : t.filter = s.filter

/-- With the hold empty and the slot off the pool wait list the host side stands, and the slot stays off the list. -/
def State.KeepsEmpty (i : SlotId) (s t : State) : Prop :=
  (s.slot i).chan.hold = none → i ∉ s.poolWait → (t.slot i).hostSide = (s.slot i).hostSide ∧ i ∉ t.poolWait

section
variable {s t u : State} {i : SlotId}

theorem State.KeepsSide.refl : State.KeepsSide i s s := ⟨rfl, rfl, rfl⟩

theorem State.KeepsSide.trans (h : State.KeepsSide i s t) (k : State.KeepsSide i t u) : State.KeepsSide i s u :=
  ⟨k.side.trans h.side, k.poolWait.trans h.poolWait, k.filter.trans h.filter⟩

theorem State.KeepsSide.empty (h : State.KeepsSide i s t) : State.KeepsEmpty i s t := fun _ hoff =>
  ⟨h.side, h.poolWait ▸ hoff⟩

theorem State.KeepsEmpty.trans (h : State.KeepsEmpty i s t) (k : State.KeepsEmpty i t u) : State.KeepsEmpty i s u := by
  intro hempty hoff
  obtain ⟨hside, hoff'⟩ := h hempty hoff
  obtain ⟨hside', hoff''⟩ := k ((congrArg Prod.fst hside).trans hempty) hoff'
  exact ⟨hside'.trans hside, hoff''⟩

end

section
variable (s : State) (i j : SlotId)

theorem State.keepsSide_setSlot (x : Slot) (hx : x.hostSide = (s.slot j).hostSide) : State.KeepsSide i s (s.setSlot j x) := by
  refine ⟨?_, rfl, rfl⟩
  rw [State.slot_setSlot]
  split
  · next hij => rw [hij, hx]
  · rfl

theorem State.keepsSide_moved (x : Slot) (hx : x.hostSide = (s.slot j).hostSide) : State.KeepsSide i s (s.moved j x) := by
  have hset := s.keepsSide_setSlot i j { x with
      ctl := if (s.slot j).pwren && !x.pwren then x.ctl.powerOffAt s.now x.policy.minOff else x.ctl
      rails := x.rails.after ((s.slot j).pwren != x.pwren) ((s.slot j).pwren && !x.pwren)
      pins := x.pins.after (s.slot j).blinks x.blinks s.now } hx
  exact ⟨hset.side, rfl, rfl⟩

theorem State.keepsSide_drive (f : Slot → Slot) (hf : ∀ a, (f a).hostSide = a.hostSide) :
    State.KeepsSide i s (s.drive j f) := by
  rw [State.drive_eq_moved]
  exact s.keepsSide_moved i j _ (hf _)

theorem State.keepsSide_report (kind : ReportKind) (r : Option Reason) (v : Option Nat) :
    State.KeepsSide i s (s.report kind j r v) := by
  rw [State.report_eq]
  exact ⟨rfl, rfl, rfl⟩

theorem State.keepsEmpty_absorbsHold : State.KeepsEmpty i s (s.absorbsHold j) := by
  intro hempty hoff
  by_cases hij : i = j
  · rw [← hij, State.absorbsHold_none hempty]
    exact ⟨rfl, hoff⟩
  · exact ⟨by rw [(s.absorbsHold_spares j).others i hij], fun hwaits => hoff ((s.absorbsHold_spares j).poolWait i hwaits)⟩

/-- R84: an entry to QUARANTINED keeps the host side up to the emptied hold. -/
theorem State.goesQuarantined_absorbs (r : Reason) :
    ∃ t, s.goesQuarantined j r = t.absorbsHold j ∧ State.KeepsSide i s t ∧ (t.slot j).ctl.state = .quarantined := by
  unfold State.goesQuarantined
  dsimp only
  generalize hmoved : s.moved j _ = m
  have hkept : State.KeepsSide i s m := hmoved ▸ s.keepsSide_moved i j _ rfl
  have hstate : (m.slot j).ctl.state = .quarantined := by rw [← hmoved, State.moved_state]; rfl
  refine ⟨_, rfl, ?_, ?_⟩
  · refine hkept.trans (.trans (m.keepsSide_setSlot i j { m.slot j with
      ctl := { (m.slot j).ctl.powerOffAt s.now (s.slot j).policy.minOff with lastReported := .quarantined }
      rails := (m.slot j).rails.after false true } rfl) ⟨rfl, rfl, rfl⟩)
  · exact (congrArg (fun x : Slot => x.ctl.state) (m.slot_setSlot_self j _)).trans hstate

theorem State.keepsEmpty_enterQuarantined (r : Reason) : State.KeepsEmpty i s (s.enterQuarantined j r) := by
  obtain ⟨t, ht, hkept, -⟩ := s.goesQuarantined_absorbs i j r
  rw [State.enterQuarantined_eq, ht]
  exact hkept.empty.trans (t.keepsEmpty_absorbsHold i j)

theorem State.keepsEmpty_budgetFailure : State.KeepsEmpty i s (s.budgetFailure j) :=
  (s.keepsSide_report i j _ _ _).empty.trans (State.keepsEmpty_enterQuarantined _ i j _)

theorem State.keepsSide_enterRamping : State.KeepsSide i s (s.enterRamping j) := s.keepsSide_drive i j _ fun _ => rfl

theorem State.keepsEmpty_grantLoop (l : List Place) : ∀ s : State, State.KeepsEmpty i s (State.grantLoop l s) := by
  induction l with
  | nil => exact fun s => State.KeepsSide.refl.empty
  | cons p rest ih =>
    intro s
    unfold State.grantLoop
    split
    · exact .trans (State.keepsEmpty_budgetFailure { s with arbiter.queue := rest } i p.slot) (ih _)
    · split
      · exact .trans (State.keepsSide_enterRamping { s with arbiter.queue := rest, arbiter.granted := s.arbiter.granted ++ [p] }
          i p.slot).empty (ih _)
      · exact State.KeepsSide.refl.empty

theorem State.keepsEmpty_grantCheck : State.KeepsEmpty i s s.grantCheck := State.keepsEmpty_grantLoop i _ s

theorem State.keepsEmpty_enterPowerWait : State.KeepsEmpty i s (s.enterPowerWait j) := by
  unfold State.enterPowerWait
  dsimp only
  have hdrive := (s.keepsSide_drive i j (fun sl => sl.moveTo .powerWait) fun _ => rfl).empty
  split
  · exact hdrive.trans (State.keepsEmpty_budgetFailure _ i j)
  · refine hdrive.trans (.trans ?_ (State.keepsEmpty_grantCheck _ i))
    exact State.KeepsSide.empty ⟨rfl, rfl, rfl⟩

/-- R92: an entry to DISCHARGING keeps the host side up to the emptied hold. -/
theorem State.goesDischarging_keeps (c : Controller) (target : Target) :
    State.KeepsSide i s (s.goesDischarging j c target)
      ∧ ((s.goesDischarging j c target).slot j).ctl.state = .discharging :=
  ⟨s.keepsSide_moved i j _ rfl, State.moved_state _ _ _⟩

end

/-! ### What an emptied hold leaves, and what follows -/

/-- Slot `i` has absorbed `h`, the host request it held, and is off the pool wait list. -/
def State.Absorbed (i : SlotId) (h : Held) (s t : State) : Prop :=
  (t.slot i).hostSide = (({ s.slot i with chan.hold := none } : Slot).absorbing s.filter h.req).hostSide ∧ i ∉ t.poolWait

section
variable {s t u : State} {i : SlotId} {h : Held}

theorem Slot.absorbing_hold (sl : Slot) (filter : List Span) (r : Request) :
    (sl.absorbing filter r).chan.hold = sl.chan.hold := by
  unfold Slot.absorbing
  cases r.kind <;> rfl

theorem State.absorbed_absorbsHold (hkept : State.KeepsSide i s t) (hhold : (s.slot i).chan.hold = some h)
    (hstate : (t.slot i).ctl.state ≠ .fencing) : State.Absorbed i h s (t.absorbsHold i) := by
  have hhold' : (t.slot i).chan.hold = some h := (congrArg Prod.fst hkept.side).trans hhold
  rw [State.absorbsHold_of_fresh hhold' fun hrefused => hstate hrefused.1]
  refine ⟨?_, fun hwaits => by simp at hwaits⟩
  rw [State.slot_setSlot_self, hkept.filter]
  exact Slot.absorbing_hostSide_congr _ _ (congrArg (fun side => (none, side.2)) hkept.side)

theorem State.Absorbed.trans (hdone : State.Absorbed i h s t) (hkept : State.KeepsEmpty i t u) : State.Absorbed i h s u := by
  obtain ⟨hside, hoff⟩ := hdone
  obtain ⟨hside', hoff'⟩ := hkept ((congrArg Prod.fst hside).trans (Slot.absorbing_hold _ _ _)) hoff
  exact ⟨hside'.trans hside, hoff'⟩

/-- R11, R84: an entry to QUARANTINED absorbs what is held. -/
theorem State.absorbed_goesQuarantined (hhold : (s.slot i).chan.hold = some h) (r : Reason) :
    State.Absorbed i h s (s.goesQuarantined i r) := by
  obtain ⟨t, ht, hkept, hstate⟩ := s.goesQuarantined_absorbs i i r
  rw [ht]
  exact State.absorbed_absorbsHold hkept hhold (by rw [hstate]; decide)

/-- R11, R92: so does an entry to DISCHARGING for a bring-up, and one whose power goes off by it. -/
theorem State.absorbed_discharges (hhold : (s.slot i).chan.hold = some h) {c : Controller} {target : Target}
    (hgoes : target = .bringUp ∨ ((s.goesDischarging i c target).slot i).ctl.minOffElapsed = false) :
    State.Absorbed i h s (s.discharges i c target) := by
  obtain ⟨hkept, hstate⟩ := s.goesDischarging_keeps i i c target
  have hdone := State.absorbed_absorbsHold hkept hhold (by rw [hstate]; decide)
  have hctl := ((s.goesDischarging i c target).absorbsHold_spares i).ctl
  unfold State.discharges
  dsimp only
  split
  · next hrested =>
    obtain rfl | hearly := hgoes
    · have htarget : (((s.goesDischarging i c .bringUp).absorbsHold i).slot i).ctl.target = some .bringUp := by
        rw [hctl, State.goesDischarging, State.moved_slot]
        dsimp only
        split <;> rfl
      rw [State.completesDischarge, if_pos htarget, ← State.enterPowerWait_eq]
      exact hdone.trans (State.keepsEmpty_enterPowerWait _ i i)
    · simp [Slot.rested, hctl, hearly] at hrested
  · exact hdone

end

/-! ### The fence at the end of the link grace time, and the ends of RESTORING -/

/-- R12, R62: a fence with a drain that finds entries pending ends in FENCING. -/
theorem State.fences_drains {s : State} {i : SlotId} (hentries : (s.slot i).entries ≠ [])
    (hdrain : (s.slot i).policy.drain ≠ 0) : s.fences i .link .recover = s.goesFencing i .link .recover :=
  if_neg (by simp [hentries, hdrain])

section
variable (s : State) (i : SlotId) (r : Reason) (d : Disposition)

/-- R11, R62: the host side after an entry to FENCING. -/
theorem State.goesFencing_hostSide :
    let t := s.goesFencing i r d
    ((s.slot i).chan.hold = none → (t.slot i).hostSide = (s.slot i).hostSide ∧ t.poolWait = s.poolWait)
    ∧ ∀ h, (s.slot i).chan.hold = some h → t.poolWait = (s.poolWait.filter fun j => j ≠ i)
        ∧ (h.req.posted = true ∨ (∀ e ∈ (s.slot i).entries, e.tag ≠ h.req.tag) →
            (t.slot i).hostSide = (({ s.slot i with chan.hold := none } : Slot).absorbing s.filter h.req).hostSide)
        ∧ (h.req.posted = false → (∃ e ∈ (s.slot i).entries, e.tag = h.req.tag) →
            (t.slot i).hostSide =
              (({ s.slot i with chan.hold := none } : Slot).tellsHost
                (.completion (Completion.bare h.req.tag .abort))).hostSide) := by
  intro t
  obtain ⟨hside, hchan, hentries, hstate, -, -⟩ := s.atFencing_slot i r d
  obtain ⟨hslot, hwait⟩ := s.goesFencing_slot i r d
  have hhostSide : (t.slot i).hostSide = (((s.atFencing i r d).absorbsHold i).slot i).hostSide := by
    show ((s.goesFencing i r d).slot i).hostSide = _
    rw [hslot]
    exact (Slot.blocking_keeps _).1
  rw [hhostSide, show t.poolWait = _ from hwait]
  refine ⟨fun hnone => ?_, fun h hhold => ?_⟩
  · rw [State.absorbsHold_none ((congrArg Prod.fst hside).trans hnone)]
    exact ⟨hside, rfl⟩
  · have hhold' : ((s.atFencing i r d).slot i).chan.hold = some h := (congrArg Prod.fst hside).trans hhold
    by_cases hrefused : ((s.atFencing i r d).slot i).Refuses h.req
    · obtain ⟨hslot', hwait'⟩ := State.absorbsHold_of_pending hhold' hrefused
      obtain ⟨-, hposted, e, he, htag⟩ := hrefused
      rw [hslot', hwait']
      refine ⟨rfl, fun hfresh => ?_, fun _ _ => ?_⟩
      · exact (hfresh.elim (fun hp => by simp [hp] at hposted) fun hf => hf e (hentries ▸ he) htag).elim
      · exact congrArg (fun side : Option Held × List HostOut × Nat × Nat × Option Dword × ImageStore × Policy =>
          ((none : Option Held), side.2.1 ++ [HostOut.completion (Completion.bare h.req.tag .abort)], side.2.2)) hside
    · rw [State.absorbsHold_of_fresh hhold' hrefused, State.slot_setSlot_self]
      refine ⟨rfl, fun _ => ?_, fun hposted hpending => ?_⟩
      · exact Slot.absorbing_hostSide_congr _ _ (congrArg (fun side => (none, side.2)) hside)
      · exact (hrefused ⟨hstate, hposted, hentries ▸ hpending⟩).elim

theorem State.goesFencing_hold : ((s.goesFencing i r d).slot i).chan.hold = none := by
  obtain ⟨hnone, hsome⟩ := s.goesFencing_hostSide i r d
  cases hhold : (s.slot i).chan.hold with
  | none => exact (congrArg Prod.fst (hnone hhold).1).trans hhold
  | some h =>
    obtain ⟨-, hfresh, hrefused⟩ := hsome h hhold
    by_cases hplain : h.req.posted = true ∨ ∀ e ∈ (s.slot i).entries, e.tag ≠ h.req.tag
    · exact (congrArg Prod.fst (hfresh hplain)).trans (Slot.absorbing_hold _ _ _)
    · push Not at hplain
      exact congrArg Prod.fst (hrefused (Bool.eq_false_iff.2 hplain.1) hplain.2)

/-- R11, R71: the card's side after an entry to FENCING. -/
theorem State.goesFencing_card :
    let ch := ((s.goesFencing i r d).slot i).chan
    ch.gateOpen = false ∧ ch.cardHold = none
      ∧ ((s.slot i).chan.cardHold = none → ch.cardOut = (s.slot i).chan.cardOut)
      ∧ ∀ q, (s.slot i).chan.cardHold = some q → ch.cardOut = (s.slot i).chan.cardOut ++
          (if q.posted = true then [] else [.completion (Completion.bare q.tag .unsupported)]) := by
  intro ch
  obtain ⟨-, hchan, -⟩ := s.atFencing_slot i r d
  obtain ⟨hout, hhold, hgate⟩ := State.absorbsHold_card (s.atFencing i r d) i
  rw [hchan] at hout hhold hgate
  obtain ⟨-, hblockedGate, hblockedHold⟩ := (((s.atFencing i r d).absorbsHold i).slot i).blocking_keeps
  have hslot : ch = _ := congrArg (fun x : Slot => x.chan) (s.goesFencing_slot i r d).1
  rw [hslot]
  have hblockedOut := (((s.atFencing i r d).absorbsHold i).slot i).blocking_cardOut
  rw [hout, hhold] at hblockedOut
  exact ⟨hblockedGate.trans hgate, hblockedHold, hblockedOut⟩

end

section
variable {s : State} {i : SlotId} {h : Held}

/-- R11, R89: RESTORING ends at its timeout by a discharge for the next attempt, or in QUARANTINED. -/
theorem State.absorbed_restoreTimeout (hstate : (s.slot i).ctl.state = .restoring) (hhold : (s.slot i).chan.hold = some h)
    (r : Reason) :
    State.Absorbed i h (s.setSlot i { s.slot i with store := (s.slot i).store.stopped }) (s.failsAttempt i r) := by
  unfold State.failsAttempt
  rw [State.stageLeft_of_restoring hstate]
  dsimp only
  generalize hleft : s.setSlot i { s.slot i with store := (s.slot i).store.stopped } = left
  have hhold' : (left.slot i).chan.hold = some h := by rw [← hleft, State.slot_setSlot_self]; exact hhold
  split
  · exact State.absorbed_discharges (s := State.reporting left _) hhold' (.inl rfl)
  · exact State.absorbed_goesQuarantined (s := State.reporting left _) hhold' _

/-- R93: in LIVE an entry from RESTORING to DISCHARGING turns the power off, so min-off has not elapsed. -/
theorem State.goesDischarging_early (hlive : (s.slot i).pins.mode = .live) (hstate : (s.slot i).ctl.state = .restoring)
    (c : Controller) (target : Target) : ((s.goesDischarging i c target).slot i).ctl.minOffElapsed = false := by
  have hon : (s.slot i).pwren = true := by simp [Slot.pwren, Slot.drive, hlive, hstate, SlotState.liveDrive]
  rw [State.goesDischarging, State.moved_slot]
  dsimp only
  rw [if_pos]
  · rfl
  · rw [hon]
    simp [Slot.pwren, Slot.drive, hlive, SlotState.liveDrive, Controller.into]

/-- R11, R91: PWR.OFF ends RESTORING by a discharge. -/
theorem State.absorbed_powerOff (hstate : (s.slot i).ctl.state = .restoring) (hlive : (s.slot i).pins.mode = .live)
    (hhold : (s.slot i).chan.hold = some h) (r : Reason) :
    State.Absorbed i h (s.setSlot i { s.slot i with store := (s.slot i).store.stopped }) (s.abandons i r) := by
  unfold State.abandons
  dsimp only
  rw [if_neg (by rw [hstate]; decide), if_neg (by rw [hstate]; decide), State.stageLeft_of_restoring hstate]
  refine State.absorbed_discharges (by rw [State.slot_setSlot_self]; exact hhold) (.inr ?_)
  apply State.goesDischarging_early <;> rw [State.slot_setSlot_self]
  exacts [hlive, hstate]

end

/-- Settles O37: the hold of the host by what `goesFencing_hostSide` and the two ends of RESTORING absorb,
the card's by `goesFencing_card`. -/
theorem fenceEmptiesTheHolds : Obligations.FenceEmptiesTheHolds := by
  unfold Obligations.FenceEmptiesTheHolds
  intro taken
  refine ⟨fun s i hpor hopen hdue hentries hdrain => ?_, fun s i c h hpor hstate hhold hc => ?_⟩
  · intro sl
    obtain ⟨hkept, hfencing⟩ := s.goesFencing_spares i .link .recover
    obtain ⟨hreason, hdisposition⟩ := s.goesFencing_ctl i .link .recover
    obtain ⟨hgate, hcardHold, hcardNone, hcardSome⟩ := s.goesFencing_card i .link .recover
    obtain ⟨hnone, hsome⟩ := s.goesFencing_hostSide i .link .recover
    have hexec : exec (.linkGraceExpiry i) s = .next (s.goesFencing i .link .recover) :=
      (next_running _ hpor).trans (congrArg _ ((State.graceExpiry_eq hopen hdue).trans (State.fences_drains hentries hdrain)))
    have htaken : ∀ h, sl.chan.hold = some h → (h.req.posted = true ∨ ∀ e ∈ sl.entries, e.tag ≠ h.req.tag) →
        taken s i sl.store h (s.goesFencing i .link .recover) := fun h hhold hfresh =>
      (s.slot i).absorbing_taken (fun _ => rfl) ((hsome h hhold).2.1 hfresh)
    have hrefused : ∀ h, sl.chan.hold = some h → h.req.posted = false → (∃ e ∈ sl.entries, e.tag = h.req.tag) → _ :=
      fun h hhold => (hsome h hhold).2.2
    refine ⟨_, hexec, s.goesFencing_others i _ _, hkept, hfencing, hreason, hdisposition, hgate, ?_, hcardHold,
      fun hempty => ?_, fun h hhold => (hsome h hhold).1, htaken, fun h hhold hposted hpending => ?_, hcardNone, hcardSome⟩
    · exact s.goesFencing_hold i _ _
    · obtain ⟨hside, hwait⟩ := hnone hempty
      simp only [Slot.hostSide, Prod.mk.injEq] at hside
      obtain ⟨-, hout, habsorbed, hdropped, -, hstore, -⟩ := hside
      exact ⟨hout, habsorbed, hdropped, hstore, hwait⟩
    · have hside := hrefused h hhold hposted hpending
      simp only [Slot.hostSide, Prod.mk.injEq] at hside
      obtain ⟨-, hout, habsorbed, hdropped, -, hstore, -⟩ := hside
      exact ⟨hout, habsorbed, hdropped, hstore⟩
  · have hdone : ∃ t, exec c s = .next t ∧
        State.Absorbed i h (s.setSlot i { s.slot i with store := (s.slot i).store.stopped }) t := by
      obtain ⟨rfl, hdue⟩ | ⟨rfl, hready, hlive⟩ := hc
      · exact ⟨_, (next_running _ hpor).trans (congrArg _ (State.restoreExpiry_eq hstate hdue)),
          State.absorbed_restoreTimeout hstate hhold _⟩
      · have hdone := State.doPwrOff_of_attempt hlive (by simp [hstate])
        exact ⟨_, exec_pwrOff hready hdone (s.elapsed_abandons i .command) rfl,
          State.absorbed_powerOff hstate hlive hhold .command⟩
    obtain ⟨t, hexec, hside, hoff⟩ := hdone
    rw [State.slot_setSlot_self] at hside
    exact ⟨t, hexec, hoff, (s.slot i).absorbing_taken (fun _ => rfl) hside⟩

end Sys2Proof.Machine
end

section
/-! O49: a request is read back from its payload (section 10.3, R185). -/
namespace Sys2Proof.Machine

/-! ### Values of several bytes -/

theorem ofLe_leBytes (n : Nat) : ∀ v : Nat, ofLe (leBytes n v) = v % 256 ^ n := by
  induction n with
  | zero => exact fun v => (Nat.mod_one v).symm
  | succ n ih =>
    intro v
    simp only [leBytes, ofLe, ih, BitVec.toNat_ofNat]
    rw [pow_succ' 256 n, Nat.mod_mul]

/-- A value of `n` bytes is what its bytes stand for. -/
theorem ofNat_ofLe_leBytes {w : Nat} (n : Nat) (x : BitVec w) (hw : 2 ^ w = 256 ^ n) :
    BitVec.ofNat w (ofLe (leBytes n x.toNat)) = x := by
  rw [ofLe_leBytes, ← hw, Nat.mod_eq_of_lt x.isLt, BitVec.ofNat_toNat, BitVec.setWidth_eq]

/-- The two bytes of a value. -/
theorem leBytes_two (v : Nat) : leBytes 2 v = [BitVec.ofNat 8 v, BitVec.ofNat 8 (v / 256)] := rfl

theorem le16_leBytes (x : BitVec 16) : le16 (BitVec.ofNat 8 x.toNat) (BitVec.ofNat 8 (x.toNat / 256)) = x :=
  ofNat_ofLe_leBytes 2 x (by decide)

/-! ### Lists of pairs -/

theorem parsePages_pageBytes (ps : List (BitVec 40 × BitVec 40)) : parsePages (pageBytes ps) = some ps := by
  induction ps with
  | nil => rfl
  | cons p ps ih =>
    obtain ⟨base, limit⟩ := p
    have hbase := ofNat_ofLe_leBytes 5 base (by decide)
    have hlimit := ofNat_ofLe_leBytes 5 limit (by decide)
    simp only [leBytes] at hbase hlimit
    simp only [pageBytes, leBytes, List.cons_append, List.nil_append, parsePages, ih, Option.map_some, hbase, hlimit]

theorem parseBounds_boundBytes (rs : List (BitVec 16 × BitVec 16)) : parseBounds (boundBytes rs) = some rs := by
  induction rs with
  | nil => rfl
  | cons r rs ih =>
    obtain ⟨base, limit⟩ := r
    simp only [boundBytes, leBytes_two, List.cons_append, List.nil_append, parseBounds, ih, Option.map_some, le16_leBytes]

theorem parsePolicy_bytes (p : RawPolicy) : parsePolicy p.bytes = some p := by
  simp only [RawPolicy.bytes, leBytes_two, List.cons_append, List.nil_append, parsePolicy, le16_leBytes]

/-! ### Requests -/

/-- The count byte of a list that fits a frame. -/
theorem toNat_count {n : Nat} (h : n < 256) : (BitVec.ofNat 8 n).toNat = n := by
  rw [BitVec.toNat_ofNat, Nat.mod_eq_of_lt h]

/-- R185, check 2: the fields of a request are read back. -/
theorem parseFields_fieldBytes {r : BmcRequest} (hwf : r.wf = true) : parseFields r.code r.fieldBytes = some r := by
  cases r with
  | id h => cases h <;> rfl
  | slotSet p => exact congrArg (Option.map _) (parsePolicy_bytes p)
  | winSet ps =>
    have hcount : (BitVec.ofNat 8 ps.length).toNat = ps.length := toNat_count (by simp [BmcRequest.wf] at hwf; omega)
    exact (if_pos (by rw [Laws.length_pageBytes, hcount])).trans (congrArg (Option.map _) (parsePages_pageBytes ps))
  | denySet ps =>
    have hcount : (BitVec.ofNat 8 ps.length).toNat = ps.length := toNat_count (by simp [BmcRequest.wf] at hwf; omega)
    exact (if_pos (by rw [Laws.length_pageBytes, hcount])).trans (congrArg (Option.map _) (parsePages_pageBytes ps))
  | filterSet rs =>
    have hcount : (BitVec.ofNat 8 rs.length).toNat = rs.length := toNat_count (by simp [BmcRequest.wf] at hwf; omega)
    exact (if_pos (by rw [Laws.length_boundBytes, hcount])).trans (congrArg (Option.map _) (parseBounds_boundBytes rs))
  | scoreSet p => exact congrArg (fun x => some (BmcRequest.scoreSet { p with decayEpoch := x })) (le16_leBytes p.decayEpoch)
  | imgPut o v m =>
    have hvalue := ofNat_ofLe_leBytes 4 v (by decide)
    exact congrArg₂ (fun x y => some (BmcRequest.imgPut x y m)) (le16_leBytes o) hvalue
  | slotGet | fence | recover | quar | pwrOn | pwrOff | budgetSet | imgRead | imgDrop | pinMode | pinLoad | pinSample
  | railRead | reportTake | partReset => rfl

theorem BmcRequest.code_range (r : BmcRequest) : ¬ (r.code.toNat = 0 ∨ 0x16 < r.code.toNat) := by
  cases r <;> exact of_decide_eq_true rfl

/-- Settles O49: the code is one of a request, and the fields are read back. -/
theorem requestRoundTrip : Obligations.RequestRoundTrip := by
  intro sb r hwf
  rw [encodeRequest, parseRequest, if_neg (BmcRequest.code_range r)]
  simp only [parseFields_fieldBytes hwf]

end Sys2Proof.Machine
end

section
/-! O50, O51: characters make frames (R180, R181), and a request's frame does what its command does (R182). -/
namespace Sys2Proof.Machine

/-! ### One character -/

section
variable {s : State} {v : Byte}

theorem exec_characterReceived (v : Byte) (b : Bool) (hpor : s.porHeld = false) (hcreset : s.cresetHeld = false) :
    exec (.characterReceived v b) s = .next (if b = true then s.goodCharacter v else s.badStop) := by
  have hexec : exec (.characterReceived v b) s = .next (s.characterReceived v b) := next_running _ hpor
  rw [hexec, State.characterReceived, State.when, if_pos (by simp [hcreset])]

/-- R180: with a good stop bit the character carries the frame on. -/
theorem exec_good (v : Byte) (hpor : s.porHeld = false) (hcreset : s.cresetHeld = false) :
    exec (.characterReceived v true) s = .next (s.goodCharacter v) :=
  exec_characterReceived v true hpor hcreset

/-- R202: while CRESET# is held MRX is ignored. -/
theorem exec_characterReceived_held (v : Byte) (b : Bool) (hcreset : s.cresetHeld = true) :
    exec (.characterReceived v b) s = .next s := by
  have hkept : s.characterReceived v b = s := if_neg (by simp [hcreset])
  by_cases hpor : s.porHeld = true
  · exact next_running_held _ hpor
  · exact (next_running _ (Bool.eq_false_iff.2 hpor)).trans (congrArg _ hkept)

theorem State.goodCharacter_sync (hphase : s.link.phase = .hunt) :
    s.goodCharacter 0xA5 = { s with link.phase := .length, link.gapTimer := some (s.now + 2000#32) } := by
  simp only [State.goodCharacter, hphase]
  rfl

theorem State.goodCharacter_hunt (hphase : s.link.phase = .hunt) (hv : v ≠ 0xA5) : s.goodCharacter v = s := by
  simp only [State.goodCharacter, hphase, if_neg hv]

theorem State.goodCharacter_length (hphase : s.link.phase = .length) (hlow : 1 ≤ v.toNat) (hhigh : v.toNat ≤ 60) :
    s.goodCharacter v =
      { s with
        link.phase := .payload, link.frameLen := v.toNat, link.payload := [], link.gapTimer := some (s.now + 2000#32) } := by
  simp only [State.goodCharacter, hphase, hlow, hhigh, decide_true, Bool.and_self, if_true]
  rfl

theorem State.goodCharacter_badLength (hphase : s.link.phase = .length) (hv : v = 0 ∨ 60 < v.toNat) :
    s.goodCharacter v = { s with link := { s.link.hunt with counts.length := countUp s.link.counts.length } } := by
  have hout : ¬ (decide (1 ≤ v.toNat) && decide (v.toNat ≤ 60)) = true := by
    rw [Bool.and_eq_true, decide_eq_true_iff, decide_eq_true_iff]
    obtain rfl | hv := hv
    · exact fun h => absurd h.1 (by decide)
    · omega
  simp only [State.goodCharacter, hphase, if_neg hout]

theorem State.goodCharacter_payload (hphase : s.link.phase = .payload) :
    s.goodCharacter v =
      { s with
        link.payload := s.link.payload ++ [v]
        link.phase := if s.link.payload.length + 1 < s.link.frameLen then .payload else .check
        link.gapTimer := some (s.now + 2000#32) } := by
  have hlast : (if s.link.frameLen ≤ (s.link.payload ++ [v]).length then Assembly.check else .payload) =
      if s.link.payload.length + 1 < s.link.frameLen then .payload else .check := by
    rw [List.length_append, List.length_singleton]
    split
    · next h => rw [if_neg (Nat.not_lt.2 h)]
    · next h => rw [if_pos (Nat.not_le.1 h)]
  simp only [State.goodCharacter, hphase, hlast]
  rfl

/-- The sum of a list of bytes modulo 256. -/
theorem byteSum_eq (l : List Byte) : byteSum l = BitVec.ofNat 8 (l.map fun b => b.toNat).sum := by
  have hfold : ∀ (l : List Byte) (a : Byte),
      l.foldl (fun a b => a + b) a = a + BitVec.ofNat 8 (l.map fun b => b.toNat).sum := by
    intro l
    induction l with
    | nil => exact fun a => by simp
    | cons b l ih =>
      intro a
      rw [List.foldl_cons, ih, List.map_cons, List.sum_cons, BitVec.ofNat_add, BitVec.ofNat_toNat, BitVec.setWidth_eq,
        BitVec.add_assoc]
  exact (hfold l 0).trans (BitVec.zero_add _)

/-- R180: the check test is a sum to a multiple of 256. -/
theorem checkGood_iff (l : Link) (v : Byte) :
    checkGood l v = true ↔ (l.frameLen + (l.payload.map fun b => b.toNat).sum + v.toNat) % 256 = 0 := by
  have hv : v = BitVec.ofNat 8 v.toNat := by rw [BitVec.ofNat_toNat, BitVec.setWidth_eq]
  rw [checkGood, byteSum_eq, byteOf, beq_iff_eq, hv, ← BitVec.ofNat_add, ← BitVec.ofNat_add, ← BitVec.toNat_inj,
    BitVec.toNat_ofNat, ← hv]
  rfl

theorem State.goodCharacter_badCheck (hphase : s.link.phase = .check)
    (hsum : (s.link.frameLen + (s.link.payload.map fun b => b.toNat).sum + v.toNat) % 256 ≠ 0) :
    s.goodCharacter v = { s with link := { s.link.hunt with counts.check := countUp s.link.counts.check } } := by
  simp only [State.goodCharacter, hphase, if_neg fun h => hsum ((checkGood_iff _ _).1 h)]

theorem State.goodCharacter_check (hphase : s.link.phase = .check)
    (hsum : (s.link.frameLen + (s.link.payload.map fun b => b.toNat).sum + v.toNat) % 256 = 0) :
    s.goodCharacter v = ({ s with link := s.link.hunt } : State).frameComplete s.link.payload := by
  simp only [State.goodCharacter, hphase, if_pos ((checkGood_iff _ _).2 hsum)]

end

/-- Settles O51: each character by the phase it meets. -/
theorem charactersAreAssembledOrDiscarded : Obligations.CharactersAreAssembledOrDiscarded := by
  intro s v hpor hcreset hunt gap
  have hgood (v : Byte) := exec_good v hpor hcreset
  refine ⟨fun hphase => ?_, fun hphase hlow hhigh => ?_, fun hphase => ?_, ?_, fun hphase hv => ?_, fun hphase hv => ?_,
    fun hphase hsum => ?_, fun hdue => ?_, fun b => ?_⟩
  · rw [hgood, State.goodCharacter_sync hphase]
  · rw [hgood, State.goodCharacter_length hphase hlow hhigh]
  · rw [hgood, State.goodCharacter_payload hphase]
  · exact exec_characterReceived v false hpor hcreset
  · rw [hgood, State.goodCharacter_hunt hphase hv]
  · rw [hgood, State.goodCharacter_badLength hphase hv]
    rfl
  · rw [hgood, State.goodCharacter_badCheck hphase hsum]
    rfl
  · have hexec : exec .gapTimerExpiry s = .next s.gapExpiry := next_running _ hpor
    rw [hexec, State.gapExpiry, State.when, if_pos (State.due_iff.2 hdue)]
    rfl
  · exact exec_characterReceived_held (s := { s with cresetHeld := true }) v b rfl

/-! ### A whole frame -/

theorem hears_next {s t : State} {b : Byte} (bs : List Byte) (h : exec (.characterReceived b true) s = .next t) :
    State.hears (b :: bs) s = State.hears bs t := by
  simp only [State.hears, h]

/-- The part with a frame of `n` payload bytes under assembly, `got` of them received. -/
def State.assembling (s : State) (n : Nat) (got : List Byte) : State :=
  { s with
    link.phase := if got.length < n then .payload else .check
    link.frameLen := n
    link.payload := got
    link.gapTimer := some (s.now + 2000#32) }

section
variable {s : State} {payload : List Byte} (hpor : s.porHeld = false) (hcreset : s.cresetHeld = false)
include hpor hcreset

/-- R180: the payload's bytes are kept, up to the last. -/
theorem hears_payload (n : Nat) (tail : List Byte) :
    ∀ rest got : List Byte, n = got.length + rest.length →
      State.hears (rest ++ tail) (s.assembling n got) = State.hears tail (s.assembling n (got ++ rest)) := by
  intro rest
  induction rest with
  | nil => exact fun got _ => by rw [List.nil_append, List.append_nil]
  | cons b rest ih =>
    intro got hn
    rw [List.length_cons] at hn
    have hphase : (s.assembling n got).link.phase = .payload := if_pos (by omega)
    have hnext : exec (.characterReceived b true) (s.assembling n got) = .next (s.assembling n (got ++ [b])) := by
      rw [exec_good (s := s.assembling n got) b hpor hcreset, State.goodCharacter_payload hphase]
      simp only [State.assembling, List.length_append, List.length_singleton]
      rfl
    exact (hears_next _ hnext).trans ((ih (got ++ [b]) (by simp; omega)).trans (by rw [List.append_assoc, List.singleton_append]))

/-- R180, R182: a frame heard from HUNT is complete. -/
theorem hears_frame {frame : List Byte} (hlow : 1 ≤ payload.length) (hhigh : payload.length ≤ 60) (hframe : FrameOf payload frame)
    (hphase : s.link.phase = .hunt) (hlen : s.link.frameLen = 0) (hpayload : s.link.payload = []) (hgap : s.link.gapTimer = none) :
    s.hears frame = .next (s.frameComplete payload) := by
  obtain ⟨check, rfl, hsum⟩ := hframe
  have hcount : (BitVec.ofNat 8 payload.length).toNat = payload.length := toNat_count (by omega)
  set opened : State := { s with link.phase := .length, link.gapTimer := some (s.now + 2000#32) } with hopened
  have hsync : exec (.characterReceived 0xA5 true) s = .next opened := by
    rw [exec_good _ hpor hcreset, State.goodCharacter_sync hphase]
  have hlength : exec (.characterReceived (BitVec.ofNat 8 payload.length) true) opened =
      .next (s.assembling payload.length []) := by
    rw [exec_good (s := opened) _ hpor hcreset,
      State.goodCharacter_length rfl (by rw [hcount]; exact hlow) (by rw [hcount]; exact hhigh), hcount, State.assembling,
      List.length_nil, if_pos (Nat.pos_of_ne_zero (Nat.ne_of_gt hlow))]
    rfl
  have hcheck : exec (.characterReceived check true) (s.assembling payload.length payload) =
      .next (s.frameComplete payload) := by
    have hdone : (s.assembling payload.length payload).link.phase = .check := if_neg (lt_irrefl _)
    have hhunt : ({ s.assembling payload.length payload with link := (s.assembling payload.length payload).link.hunt } : State) =
        s := by
      simp only [State.assembling, Link.hunt, ← hphase, ← hlen, ← hpayload, ← hgap]
    rw [exec_good (s := s.assembling payload.length payload) _ hpor hcreset, State.goodCharacter_check hdone hsum, hhunt]
    rfl
  have hbytes := hears_payload hpor hcreset payload.length [check] payload [] (by simp)
  calc State.hears (0xA5 :: BitVec.ofNat 8 payload.length :: payload ++ [check]) s
      = State.hears (BitVec.ofNat 8 payload.length :: payload ++ [check]) opened := hears_next _ hsync
    _ = State.hears (payload ++ [check]) (s.assembling payload.length []) := hears_next _ hlength
    _ = State.hears [check] (s.assembling payload.length payload) := hbytes
    _ = .next (s.frameComplete payload) := hears_next [] hcheck

end

/-- R201, R202: while POR# or CRESET# is held nothing is heard. -/
theorem hears_held {s : State} (hheld : s.porHeld = true ∨ s.cresetHeld = true) (frame : List Byte) :
    s.hears frame = .next s := by
  induction frame with
  | nil => rfl
  | cons b frame ih =>
    have hkept : exec (.characterReceived b true) s = .next s :=
      hheld.elim (fun hpor => next_running_held _ hpor) fun hcreset => exec_characterReceived_held b true hcreset
    exact (hears_next frame hkept).trans ih

/-! ### A request's frame -/

theorem fieldBytes_length_le {r : BmcRequest} (hwf : r.wf = true) : r.fieldBytes.length ≤ 58 := by
  cases r with
  | id h => cases h <;> simp [BmcRequest.fieldBytes]
  | slotSet p => simp [BmcRequest.fieldBytes, RawPolicy.bytes, leBytes]
  | winSet ps | denySet ps =>
    simp only [BmcRequest.wf, decide_eq_true_iff] at hwf
    simp only [BmcRequest.fieldBytes, List.length_cons, Laws.length_pageBytes]
    omega
  | filterSet rs =>
    simp only [BmcRequest.wf, decide_eq_true_iff] at hwf
    simp only [BmcRequest.fieldBytes, List.length_cons, Laws.length_boundBytes]
    omega
  | imgPut o v m => simp [BmcRequest.fieldBytes, leBytes]
  | _ => simp [BmcRequest.fieldBytes, leBytes]

theorem request_wf {c : Instr} {sb : Byte} {r : BmcRequest} (hreq : c.request = some (sb, r)) (hwf : c.wf = true) :
    r.wf = true := by
  cases c <;> cases hreq
  case winSet | denySet | filterSet => exact hwf
  all_goals rfl

/-- Section 10.3: what a request's payload is taken as. -/
theorem takeFrame_encodeRequest (s : State) (sb : Byte) {r : BmcRequest} (hwf : r.wf = true) (frameEnd ready : Nat) :
    s.takeFrame (encodeRequest sb r) frameEnd ready = s.takeRequest sb r frameEnd ready := by
  rw [State.takeFrame, requestRoundTrip sb r hwf]

theorem frameComplete_encodeRequest {s : State} (sb : Byte) {r : BmcRequest} (hwf : r.wf = true)
    (hcreset : s.cresetHeld = false) : s.frameComplete (encodeRequest sb r) = s.submit sb r := by
  have hrunning : ¬ s.cresetHeld = true := by simp [hcreset]
  rw [State.frameComplete, State.submit, if_neg hrunning, takeFrame_encodeRequest s sb hwf]

/-- Settles O50: the frame of a request is complete with its payload, which is read back. -/
theorem charactersMakeTheRequest : Obligations.CharactersMakeTheRequest := by
  intro s c sb r frame hreq hwf hframe hphase hlen hpayload hgap
  have hr := request_wf hreq hwf
  rw [exec_of_request s hreq hwf]
  by_cases hheld : s.porHeld = true ∨ s.cresetHeld = true
  · rw [hears_held hheld]
    by_cases hpor : s.porHeld = true
    · rw [next_running_held _ hpor]
    · rw [next_running _ (Bool.eq_false_iff.2 hpor), State.submit, if_pos (hheld.resolve_left hpor)]
  · obtain ⟨hpor, hcreset⟩ := not_or.1 hheld
    rw [Bool.not_eq_true] at hpor hcreset
    have hfits := fieldBytes_length_le hr
    rw [hears_frame hpor hcreset (by simp [encodeRequest]) (by simp only [encodeRequest, List.length_cons]; omega) hframe hphase
      hlen hpayload hgap, frameComplete_encodeRequest sb hr hcreset, next_running _ hpor]

end Sys2Proof.Machine
end

section
/-! O53: requests that find the link busy, and frames that R185's first three checks refuse. -/
namespace Sys2Proof.Machine

/-! ### R185's checks -/

/-- The requests of the whole part (R185, check 3). -/
abbrev partCodes : List Byte := [0x01#8, 0x0A#8, 0x0B#8, 0x0C#8, 0x10#8, 0x15#8, 0x16#8]

/-- R185, check 3: a slot byte that names no slot, and for the whole part one that is not 0xFF, is refused. -/
theorem perform_refused (s : State) {sb : Byte} {r : BmcRequest}
    (h : (r.code ∈ partCodes ∧ sb ≠ 0xFF) ∨ (r.code ∉ partCodes ∧ 7 < sb.toNat)) : s.perform sb r = s.refuse .slot := by
  have hpart {a : Answer} (hcode : r.code ∈ partCodes) : s.forPart sb a = s.refuse .slot :=
    if_neg (h.elim (fun k => k.2) fun k => absurd hcode k.1)
  have hslot {f : SlotId → Answer} (hcode : r.code ∉ partCodes) : s.forSlot sb f = s.refuse .slot := by
    have hhigh : 7 < sb.toNat := h.elim (fun k => absurd k.1 hcode) fun k => k.2
    exact dif_neg (by omega)
  cases r with
  | id | denySet | budgetSet | scoreSet | filterSet | reportTake | partReset => exact hpart (of_decide_eq_true rfl)
  | slotGet | slotSet | fence | recover | quar | pwrOn | pwrOff | winSet | imgRead | imgPut | imgDrop | pinMode | pinLoad
  | pinSample | railRead =>
    rw [State.perform]
    exact hslot (of_decide_eq_true rfl)

theorem length_of_parsePolicy {f : List Byte} {p : RawPolicy} (h : parsePolicy f = some p) : f.length = 28 := by
  unfold parsePolicy at h
  split at h
  · rfl
  · cases h

/-- A count byte and the pairs it counts, of `size` bytes each. -/
theorem length_of_counted {α : Type} {size : Nat} {n : Byte} {f : List Byte} {o : Option α} {x : α}
    (h : (if f.length = size * n.toNat then o else none) = some x) : f.length = size * n.toNat := by
  by_contra hne
  rw [if_neg hne] at h
  cases h

/-- The payload around them: kind byte, slot byte and count byte go before. -/
theorem length_of_counted_payload {α : Type} {size : Nat} {code sb n : Byte} {f : List Byte} {o : Option α} {x : α}
    (h : (if f.length = size * n.toNat then o else none) = some x) :
    (code :: sb :: n :: f).length = 3 + size * n.toNat := by
  rw [← length_of_counted h, Nat.add_comm]
  rfl

/-- R185, check 2: fields that are read have a length their kind allows. -/
theorem lengthAllowed_of_parseFields {code sb : Byte} {f : List Byte} {r : BmcRequest} (hlow : 0 < code.toNat)
    (hhigh : code.toNat ≤ 0x16) (h : parseFields code f = some r) : lengthAllowed (code :: sb :: f) = true := by
  have hcode : code = BitVec.ofNat 8 code.toNat := by rw [BitVec.ofNat_toNat, BitVec.setWidth_eq]
  generalize code.toNat = n at hcode hlow hhigh
  -- The codes 0x01 to 0x16, in order.
  interval_cases n <;> subst hcode
  · match f, h with | [], _ => rfl | [_], _ => rfl
  · match f, h with | [], _ => rfl
  · obtain ⟨p, hp, -⟩ := Option.map_eq_some_iff.1 (h : (parsePolicy f).map BmcRequest.slotSet = some r)
    exact decide_eq_true (congrArg (· + 2) (length_of_parsePolicy hp))
  · match f, h with | [], _ => rfl
  · match f, h with | [_], _ => rfl
  · match f, h with | [], _ => rfl
  · match f, h with | [], _ => rfl
  · match f, h with | [], _ => rfl
  · match f, h with | n :: f, h => exact decide_eq_true (length_of_counted_payload h)
  · match f, h with | n :: f, h => exact decide_eq_true (length_of_counted_payload h)
  · match f, h with | [_], _ => rfl
  · match f, h with | [_, _, _, _, _, _, _, _, _], _ => rfl
  · match f, h with | [_], _ => rfl
  · match f, h with | [_, _, _, _, _, _, _], _ => rfl
  · match f, h with | [], _ => rfl
  · match f, h with | n :: f, h => exact decide_eq_true (length_of_counted_payload h)
  · match f, h with | [_], _ => rfl
  · match f, h with | [_, _, _, _], _ => rfl
  · match f, h with | [], _ => rfl
  · match f, h with | [], _ => rfl
  · match f, h with | [], _ => rfl
  · match f, h with | [], _ => rfl

theorem parseRequest_unknown {payload : List Byte} (hlen : 1 ≤ payload.length)
    (hcode : payload.headD 0 = 0 ∨ 0x16 < (payload.headD 0).toNat) : parseRequest payload = .unknown := by
  cases payload with
  | nil => cases hlen
  | cons code rest => exact if_pos (hcode.imp_left fun h => congrArg BitVec.toNat h)

theorem parseRequest_badLength {payload : List Byte} (hlow : payload.headD 0 ≠ 0) (hhigh : (payload.headD 0).toNat ≤ 0x16)
    (hlen : lengthAllowed payload = false) : parseRequest payload = .badLength := by
  match payload with
  | [] => exact absurd rfl hlow
  | [code] =>
    have hcode : ¬ (code.toNat = 0 ∨ 0x16 < code.toNat) := fun h =>
      h.elim (fun h => hlow (BitVec.eq_of_toNat_eq h)) fun h => absurd hhigh (Nat.not_le.2 h)
    exact if_neg hcode
  | code :: sb :: f =>
    have hcode : ¬ (code.toNat = 0 ∨ 0x16 < code.toNat) := fun h =>
      h.elim (fun h => hlow (BitVec.eq_of_toNat_eq h)) fun h => absurd hhigh (Nat.not_le.2 h)
    have hnone : parseFields code f = none := by
      refine Option.eq_none_iff_forall_ne_some.2 fun r hr => ?_
      rw [lengthAllowed_of_parseFields (Nat.pos_of_ne_zero fun h => hcode (.inl h)) hhigh hr] at hlen
      cases hlen
    rw [parseRequest, if_neg hcode]
    simp only [hnone]

/-! ### The busy link -/

section
variable {s : State} {payload : List Byte}

theorem State.frameBusy_waits (hfree : s.link.waiting = none) :
    s.frameBusy payload = { s with link.waiting := some { payload := payload, frameEnd := s.elapsed * 576 } } :=
  if_pos (by rw [hfree]; rfl)

theorem State.frameBusy_overrun (hfull : s.link.waiting ≠ none) :
    s.frameBusy payload =
      { s with link.overrun := true, link.counts.overrun := min (s.link.counts.overrun + 1) 65535 } :=
  if_neg (by simpa using hfull)

end

/-- Settles O53: a request by the link it finds, and a frame by what its payload is read as. -/
theorem busyOrRefusedRequests : Obligations.BusyOrRefusedRequests := by
  refine ⟨fun s c sb r hreq hwf hpor => ⟨fun hcreset => ?_, fun hcreset hbusy => ?_, fun hready hrefused => ?_⟩,
    fun s payload frame hready hlow hhigh hframe hphase hlen hpayload hgap => ?_⟩
  · rw [exec_of_request s hreq hwf, next_running _ hpor, State.submit, if_pos hcreset]
  · have hexec : exec c s = .next (s.frameBusy (encodeRequest sb r)) := by
      rw [exec_of_request s hreq hwf, next_running _ hpor, State.submit, if_neg (by simp [hcreset]),
        if_neg (by simpa using hbusy)]
    exact ⟨fun hfree => by rw [hexec, State.frameBusy_waits hfree], fun hfull => by rw [hexec, State.frameBusy_overrun hfull]⟩
  · exact exec_answers hreq hwf hready (perform_refused s hrefused) rfl rfl
  · obtain ⟨hpor, hcreset, hidle⟩ := hready
    have hheard : s.hears frame = .next (s.takeFrame payload s.lineNow s.lineNow) := by
      rw [hears_frame hpor hcreset hlow hhigh hframe hphase hlen hpayload hgap, State.frameComplete, if_pos (by rw [hidle]; rfl)]
    refine ⟨fun hcode => ?_, fun hnonzero hcode hbad => ?_⟩
    · rw [hheard, State.takeFrame, parseRequest_unknown hlow hcode]
      exact congrArg _ (State.reply_eq (a := s.refuse .unknown) _ rfl rfl)
    · rw [hheard, State.takeFrame, parseRequest_badLength hnonzero hcode hbad]
      exact congrArg _ (State.reply_eq (a := s.refuse .length) _ rfl rfl)

end Sys2Proof.Machine
end

section
/-! O54: the bytes of the records the part sends (section 10.3). -/
namespace Sys2Proof.Machine

/-- The bytes of a value, least significant first, by division of the value itself. -/
theorem leBytes_four (n : Nat) :
    leBytes 4 n =
      [BitVec.ofNat 8 n, BitVec.ofNat 8 (n / 256), BitVec.ofNat 8 (n / 65536), BitVec.ofNat 8 (n / 16777216)] := by
  simp [leBytes, Nat.div_div_eq_div_mul]

theorem leBytes_five (n : Nat) :
    leBytes 5 n =
      [BitVec.ofNat 8 n, BitVec.ofNat 8 (n / 256), BitVec.ofNat 8 (n / 65536), BitVec.ofNat 8 (n / 16777216),
        BitVec.ofNat 8 (n / 4294967296)] := by
  simp [leBytes, Nat.div_div_eq_div_mul]

theorem byteOf_flag (b : Bool) : byteOf (flag b 0) = if b = true then 1 else 0 := by
  cases b <;> rfl

/-- The flag byte of three marks. -/
theorem marksByte_bits (a b c : Bool) :
    let m := byteOf (flag a 0 + flag b 1 + flag c 2)
    m.toNat < 8 ∧ m.getLsbD 0 = a ∧ m.getLsbD 1 = b ∧ m.getLsbD 2 = c := by
  revert a b c
  decide

/-- The first byte of a report record: slot, kind and two flags. -/
theorem reportByte_bits (i : SlotId) (k : ReportKind) (p v : Bool) :
    let h := byteOf (i.val + 8 * k.code + flag p 6 + flag v 7)
    h.toNat % 8 = i.val ∧ h.toNat / 8 % 8 = k.code ∧ h.getLsbD 6 = p ∧ h.getLsbD 7 = v := by
  revert i p v
  cases k <;> decide

/-- Six flags of a byte, in order. -/
theorem sixFlags_bits (a b c d e f : Bool) :
    let m := byteOf (flag a 0 + flag b 1 + flag c 2 + flag d 3 + flag e 4 + flag f 5)
    m.toNat < 64 ∧ m.getLsbD 0 = a ∧ m.getLsbD 1 = b ∧ m.getLsbD 2 = c ∧ m.getLsbD 3 = d ∧ m.getLsbD 4 = e
      ∧ m.getLsbD 5 = f := by
  revert a b c d e f
  decide

/-- A policy record's enumerations by their codes. -/
theorem Policy.bytes_eq (p : Policy) : p.bytes =
    [if p.policy = .auto then 0 else if p.policy = .ask then 1 else 2, if p.lapse = .recover then 0 else 1]
      ++ leBytes 2 p.decisionTime
      ++ [if p.firstKind = .warm then 0 else 1, BitVec.ofNat 8 p.maxAttempts, BitVec.ofNat 8 p.quota]
      ++ leBytes 2 p.slotTimeout ++ leBytes 2 p.drain
      ++ [if p.fill = .ones then 0 else 1, BitVec.ofNat 8 p.linkGrace]
      ++ leBytes 2 p.resetPulse ++ leBytes 2 p.minOff ++ leBytes 2 p.dischargeTimeout ++ leBytes 2 p.ramp
      ++ leBytes 2 p.training ++ leBytes 2 p.currentLimit
      ++ [BitVec.ofNat 8 p.demand, if p.calertEnable = true then 1 else 0, if p.autoPower = true then 1 else 0] := by
  have hpolicy : p.policy.code = if p.policy = .auto then 0 else if p.policy = .ask then 1 else 2 := by
    cases p.policy <;> rfl
  have hlapse : p.lapse.code = if p.lapse = .recover then 0 else 1 := by cases p.lapse <;> rfl
  have hkind : p.firstKind.code = if p.firstKind = .warm then 0 else 1 := by cases p.firstKind <;> rfl
  have hfill : p.fill.code = if p.fill = .ones then 0 else 1 := by cases p.fill <;> rfl
  rw [← hpolicy, ← hlapse, ← hkind, ← hfill, ← byteOf_flag, ← byteOf_flag]
  rfl

/-- Settles O54: the layouts by their flag bytes and codes. -/
theorem recordsAreLaidOut : Obligations.RecordsAreLaidOut := by
  unfold Obligations.RecordsAreLaidOut
  intro b
  refine ⟨fun n => ⟨rfl, leBytes_four n, leBytes_five n⟩, fun r => ⟨_, ?_, marksByte_bits _ _ _⟩,
    fun r => ⟨_, ?_, reportByte_bits r.slot r.kind r.partialRestore r.value.isSome⟩, Policy.bytes_eq,
    fun sl => sixFlags_bits _ _ _ _ _ _, by decide, by decide, by decide, rfl, fun r => rfl, by decide, by decide⟩
  · rw [Rails.bytes]
    cases r.v12 <;> cases r.v33 <;> cases r.current <;> rfl
  · rw [Report.bytes]
    cases r.states <;> rfl

end Sys2Proof.Machine
end

section
/-! O55: the requests that read (R135, R168, R178, R186, R187, R188, R193) and ALERT# (R198). -/
namespace Sys2Proof.Machine

/-! ### ALERT# -/

theorem State.alert_iff (s : State) : s.alert = true ↔ s.reports.records ≠ [] := by simp [State.alert]

theorem State.alert_reporting {s : State} (r : Report) (h : s.mute = false) : (s.reporting r).alert = true := by
  rw [State.alert_iff, State.reporting, ReportQueue.offered, if_neg (by simp [h])]
  split
  · simp
  · next hfull => exact List.ne_nil_of_length_pos (by dsimp only; omega)

theorem State.reporting_mute {s : State} (r : Report) (h : s.mute = true) : s.reporting r = s := by
  rw [State.reporting, ReportQueue.offered, if_pos h]

/-! ### What is read -/

theorem Link.idBytes_eq (l : Link) : l.idBytes =
    [0x4E#8, 0x2C#8, 0x08#8, 0x26#8, 0x01#8, BitVec.ofNat 8 l.holdOff, if l.fast = true then 1#8 else 0#8]
      ++ leBytes 2 l.counts.gap ++ leBytes 2 l.counts.framing ++ leBytes 2 l.counts.length ++ leBytes 2 l.counts.check
      ++ leBytes 2 l.counts.overrun := by
  rw [Link.idBytes, byteOf_flag]
  rfl

theorem Slot.getBytes_eq (sl : Slot) : sl.getBytes =
    [sl.ctl.state.code, reasonByte sl.ctl.reason, BitVec.ofNat 8 sl.ctl.score, BitVec.ofNat 8 sl.ctl.attempts,
        BitVec.ofNat 8 sl.entries.length, sl.statusBits, BitVec.ofNat 8 sl.store.entries.length,
        if sl.store.incomplete = true then 1#8 else 0#8, BitVec.ofNat 8 sl.store.replayed,
        BitVec.ofNat 8 sl.outbound.tags.length, sl.pins.mode.code]
      ++ leBytes 4 sl.chan.dropped ++ leBytes 4 sl.chan.absorbed ++ sl.policy.bytes := by
  rw [Slot.getBytes, byteOf_flag]
  rfl

theorem ImageStore.countBytes_eq (st : ImageStore) :
    st.countBytes = [BitVec.ofNat 8 st.entries.length, if st.incomplete = true then 1#8 else 0#8] := by
  rw [ImageStore.countBytes, byteOf_flag]
  rfl

/-- R178: the levels where the part drives. -/
theorem Slot.sampleByte_driven {sl : Slot} {d : Drive} (hd : sl.drive = some d) (a b c : Bool) :
    let m := sl.sampleByte a b c
    m.getLsbD 0 = d.pwren ∧ m.getLsbD 1 = d.clken ∧ m.getLsbD 2 = d.crst
      ∧ m.getLsbD 3 = (d.attn == .on || d.attn == .blink && sl.pins.blinkOn)
      ∧ m.getLsbD 4 = sl.pins.prsnt ∧ m.getLsbD 5 = sl.pins.calert := by
  have hbits := (sixFlags_bits d.pwren d.clken d.crst (d.attn == .on || d.attn == .blink && sl.pins.blinkOn)
    sl.pins.prsnt sl.pins.calert).2
  have hbyte : sl.sampleByte a b c = byteOf (flag d.pwren 0 + flag d.clken 1 + flag d.crst 2
      + flag (d.attn == .on || d.attn == .blink && sl.pins.blinkOn) 3 + flag sl.pins.prsnt 4 + flag sl.pins.calert 5) := by
    rw [Slot.sampleByte, hd, Option.getD_some]
    cases d.attn <;> cases sl.pins.blinkOn <;> rfl
  intro m
  rw [show m = _ from hbyte]
  exact hbits

/-- R178: the levels in FLOAT. -/
theorem Slot.sampleByte_float {sl : Slot} (hfloat : sl.pins.mode = .float) (a b c : Bool) :
    let m := sl.sampleByte a b c
    m.getLsbD 0 = sl.pins.boardPwren ∧ m.getLsbD 4 = sl.pins.prsnt ∧ m.getLsbD 5 = sl.pins.calert := by
  have hnone : sl.drive = none := by rw [Slot.drive, hfloat]
  rw [Slot.sampleByte, hnone, Option.getD_none]
  obtain ⟨-, hpwren, -, -, -, hprsnt, hcalert⟩ := sixFlags_bits sl.pins.boardPwren a b
    (match if c = true then Attn.on else .off with
      | .off => false
      | .on => true
      | .blink => sl.pins.blinkOn) sl.pins.prsnt sl.pins.calert
  exact ⟨hpwren, hprsnt, hcalert⟩

theorem Slot.mode_of_drive {sl : Slot} {d : Drive} (hd : sl.drive = some d) : sl.pins.mode ≠ .float := by
  intro hfloat
  rw [Slot.drive, hfloat] at hd
  cases hd

/-! ### The reading requests -/

section
variable {s : State} {i : SlotId} (hready : s.linkReady)
include hready

theorem exec_id (h : Option Byte) (a : Answer) (ha : s.doId h = a) (helapsed : a.after.elapsed = s.elapsed)
    (hpart : a.partReset = false) :
    exec (.id 0xFF h) s = .next (a.after.answering 0x81 a.status.code a.data) :=
  exec_answers (r := .id h) rfl rfl hready ha helapsed hpart

theorem exec_pinSample (a : Answer) (ha : s.doPinSample i = a) (helapsed : a.after.elapsed = s.elapsed)
    (hpart : a.partReset = false) :
    exec (.pinSample (slotByte i)) s = .next (a.after.answering 0x93 a.status.code a.data) :=
  exec_slotRequest (r := .pinSample) s.doPinSample rfl rfl rfl hready ha helapsed hpart

theorem exec_imgRead (x : Byte) (a : Answer) (ha : s.doImgRead i x = a) (helapsed : a.after.elapsed = s.elapsed)
    (hpart : a.partReset = false) :
    exec (.imgRead (slotByte i) x) s = .next (a.after.answering 0x8D a.status.code a.data) :=
  exec_slotRequest (r := .imgRead x) (fun i => s.doImgRead i x) rfl rfl rfl hready ha helapsed hpart

/-- R193: up to four of the oldest records. -/
theorem exec_reportTake :
    exec (.reportTake 0xFF) s = .next
      (({ s with reports.records := s.reports.records.drop 4 } : State).answering 0x95 0x00
        (BitVec.ofNat 8 (min s.reports.records.length 4) :: (s.reports.records.take 4).flatMap Report.bytes)) := by
  have htake : s.doReportTake.data =
      BitVec.ofNat 8 (min s.reports.records.length 4) :: (s.reports.records.take 4).flatMap Report.bytes := by
    rw [State.doReportTake, List.length_take, Nat.min_comm]
    rfl
  rw [← htake]
  exact exec_answers (r := .reportTake) (a := s.doReportTake) rfl rfl hready rfl rfl rfl

end

/-- Settles O55: each request by the bytes it reads. -/
theorem readingRequestsAnswer : Obligations.ReadingRequestsAnswer := by
  refine ⟨fun s => ⟨s.alert_iff, fun r => ⟨State.alert_reporting r, State.reporting_mute r⟩⟩, fun s i hready => ?_⟩
  intro sl idData counted
  refine ⟨?_, fun h => ?_, ?_, ?_, fun x e he => ?_, fun x hx => ?_, fun d hd => ?_, fun hfloat => ?_, exec_reportTake hready,
    fun t ht => ?_⟩
  · rw [show idData s.link = _ from (Link.idBytes_eq s.link).symm]
    exact exec_id hready none (s.tell s.link.idBytes) rfl rfl rfl
  · rw [show idData { s.link with holdOff := h.toNat } = _ from (Link.idBytes_eq _).symm]
    exact exec_id hready (some h) (({ s with link.holdOff := h.toNat } : State).tell _) rfl rfl rfl
  · rw [← Slot.getBytes_eq]
    exact exec_slotRequest (r := .slotGet) (a := s.tell sl.getBytes) s.doSlotGet rfl rfl rfl hready rfl rfl rfl
  · exact exec_slotRequest (r := .railRead) (a := s.tell sl.rails.bytes) s.doRailRead rfl rfl rfl hready rfl rfl rfl
  · have hread : s.doImgRead i x = s.tell (sl.store.countBytes ++ e.bytes) := by simp only [State.doImgRead, sl, he]
    rw [show counted = _ from (ImageStore.countBytes_eq sl.store).symm, List.append_assoc, List.append_assoc,
      ← List.append_assoc (leBytes 2 _)]
    exact exec_imgRead hready x _ hread rfl rfl
  · have hnone : s.doImgRead i x =
        { after := s, status := .range, data := sl.store.countBytes, partReset := false } := by
      have hout : sl.store.entries[x.toNat]? = none := List.getElem?_eq_none hx
      simp only [State.doImgRead, sl, hout]
    rw [show counted = _ from (ImageStore.countBytes_eq sl.store).symm]
    exact exec_imgRead hready x _ hnone rfl rfl
  · have hsample : s.doPinSample i = s.tell [sl.sampleByte (Config.boardLine s.freeCount)
        (Config.boardLine (s.freeCount + 1)) (Config.boardLine (s.freeCount + 2))] := by
      rw [State.doPinSample, if_neg (Slot.mode_of_drive hd)]
    exact ⟨_, exec_pinSample hready _ hsample rfl rfl, Slot.sampleByte_driven hd _ _ _⟩
  · have hsample : s.doPinSample i = ({ s with freeCount := s.freeCount + 3 } : State).tell
        [sl.sampleByte (Config.boardLine s.freeCount) (Config.boardLine (s.freeCount + 1))
          (Config.boardLine (s.freeCount + 2))] := by
      rw [State.doPinSample, if_pos hfloat]
      rfl
    exact ⟨_, exec_pinSample hready _ hsample rfl rfl, Slot.sampleByte_float hfloat _ _ _⟩
  · rw [exec_reportTake hready] at ht
    cases ht
    rw [State.alert_iff, ← List.length_pos_iff_ne_nil]
    show 0 < (s.reports.records.drop 4).length ↔ _
    rw [List.length_drop]
    omega

end Sys2Proof.Machine
end

section
/-! O56: the requests that set (R53, R116, R158, R159, R189). -/
namespace Sys2Proof.Machine

/-! ### Numbers and codes -/

/-- R189: a number outside its range is taken as the nearer end. -/
theorem clamp_eq_nearer {low high : Nat} (h : low ≤ high) (n : Nat) :
    clamp low high n = if n < low then low else if high < n then high else n := by
  unfold clamp
  split_ifs <;> omega

theorem PolicyChoice.ofCode_eq (b : Byte) :
    PolicyChoice.ofCode b = if 2 < b.toNat then none else some (if b = 0 then .auto else if b = 1 then .ask else .hold) := by
  revert b
  decide

theorem LapseAction.ofCode_eq (b : Byte) :
    LapseAction.ofCode b = if 1 < b.toNat then none else some (if b = 0 then .recover else .quarantine) := by
  revert b
  decide

theorem ResetKind.ofCode_eq (b : Byte) :
    ResetKind.ofCode b = if 1 < b.toNat then none else some (if b = 0 then .warm else .cold) := by
  revert b
  decide

theorem FillMode.ofCode_eq (b : Byte) :
    FillMode.ofCode b = if 1 < b.toNat then none else some (if b = 0 then .ones else .abort) := by
  revert b
  decide

/-! ### SLOT.SET -/

/-- R9: a slot with nothing in its hold, or that may not proceed, has nothing re-offered. -/
theorem State.reoffersHold_eq_self {s : State} {i : SlotId}
    (h : (s.slot i).chan.hold = none ∨ ¬ ((s.slot i).serving ∧ (s.slot i).chan.linkUp = true)) : s.reoffersHold i = s := by
  unfold State.reoffersHold
  split
  · next hhold => exact if_neg (h.resolve_left (by simp [hhold]))
  · rfl

theorem State.reoffersHold_eq_reoffers {s : State} {i : SlotId} {h : Held} (hhold : (s.slot i).chan.hold = some h)
    (hproceeds : (s.slot i).serving ∧ (s.slot i).chan.linkUp = true) : s.reoffersHold i = s.reoffers i h := by
  simp only [State.reoffersHold, hhold, if_pos hproceeds]


/-- R189, check 1: an enumeration of the record is out of range. -/
abbrev MisreadPolicy (r : RawPolicy) : Prop :=
  2 < r.policy.toNat ∨ 1 < r.lapse.toNat ∨ 1 < r.firstKind.toNat ∨ 1 < r.fill.toNat ∨ 1 < r.calertEnable.toNat
    ∨ 1 < r.autoPower.toNat

/-- The record as sent, its numbers not yet clamped. -/
abbrev sentPolicy (r : RawPolicy) : Policy :=
  { policy := if r.policy = 0 then .auto else if r.policy = 1 then .ask else .hold
    lapse := if r.lapse = 0 then .recover else .quarantine
    decisionTime := r.decisionTime.toNat
    firstKind := if r.firstKind = 0 then .warm else .cold
    maxAttempts := r.maxAttempts.toNat, quota := r.quota.toNat, slotTimeout := r.slotTimeout.toNat
    drain := r.drain.toNat
    fill := if r.fill = 0 then .ones else .abort
    linkGrace := r.linkGrace.toNat, resetPulse := r.resetPulse.toNat, minOff := r.minOff.toNat
    dischargeTimeout := r.dischargeTimeout.toNat, ramp := r.ramp.toNat, training := r.training.toNat
    currentLimit := r.currentLimit.toNat, demand := r.demand.toNat
    calertEnable := decide (r.calertEnable = 1), autoPower := decide (r.autoPower = 1) }

theorem readPolicy_wrong {r : RawPolicy} (h : MisreadPolicy r) : readPolicy r = none := by
  unfold readPolicy
  rw [PolicyChoice.ofCode_eq, LapseAction.ofCode_eq, ResetKind.ofCode_eq, FillMode.ofCode_eq, switchOf_eq, switchOf_eq]
  obtain h | h | h | h | h | h := h <;> simp [h]

theorem readPolicy_right {r : RawPolicy} (h : ¬ MisreadPolicy r) : readPolicy r = some (sentPolicy r) := by
  obtain ⟨hpolicy, hlapse, hkind, hfill, hcalert, hauto⟩ : ¬ _ ∧ ¬ _ ∧ ¬ _ ∧ ¬ _ ∧ ¬ _ ∧ ¬ _ := by
    simpa only [MisreadPolicy, not_or] using h
  unfold readPolicy
  rw [PolicyChoice.ofCode_eq, LapseAction.ofCode_eq, ResetKind.ofCode_eq, FillMode.ofCode_eq, switchOf_eq, switchOf_eq,
    if_neg hpolicy, if_neg hlapse, if_neg hkind, if_neg hfill, if_neg hcalert, if_neg hauto]
  rfl

/-- R22, R25, R189: a quota that rose re-offers what waits for it. -/
theorem State.doSlotSet_eq {s : State} {i : SlotId} {r : RawPolicy} (h : ¬ MisreadPolicy r) :
    let taken := (sentPolicy r).clamped (s.slot i).ctl.attempts
    let t := s.setSlot i { s.slot i with policy := taken }
    s.doSlotSet i r =
      (if (s.slot i).policy.quota < taken.quota ∧ i ∉ s.poolWait then t.reoffersHold i else t).done
        (if taken = sentPolicy r then .ok else .clamped) := by
  intro taken t
  have hoffer : (if (s.slot i).policy.quota < taken.quota then t.quotaOffer i else t) =
      if (s.slot i).policy.quota < taken.quota ∧ i ∉ s.poolWait then t.reoffersHold i else t := by
    have hwait : t.poolWait = s.poolWait := rfl
    rw [State.quotaOffer, State.offerHeld_eq_reoffersHold, hwait]
    by_cases hrose : (s.slot i).policy.quota < taken.quota
    · by_cases hwaits : i ∈ s.poolWait <;> simp only [hrose, hwaits, not_true_eq_false, not_false_eq_true, and_self,
        and_false, if_true, if_false]
    · simp only [hrose, false_and, if_false]
  rw [State.doSlotSet, readPolicy_right h, ← hoffer]
  rfl

/-! ### Spans -/

section
variable {α : Type} (f : α → Option Span) (g : α → Span)

theorem readSpans_good {l : List α} (h : ∀ p ∈ l, f p = some (g p)) : readSpans f l = some (l.map g) := by
  induction l with
  | nil => rfl
  | cons p rest ih =>
    rw [readSpans, h p (List.mem_cons_self ..), ih fun q hq => h q (List.mem_cons_of_mem _ hq)]
    rfl

theorem readSpans_bad {l : List α} {p : α} (hp : p ∈ l) (hbad : f p = none) : readSpans f l = none := by
  induction l with
  | nil => cases hp
  | cons q rest ih =>
    rw [readSpans]
    obtain rfl | hrest := List.mem_cons.1 hp
    · rw [hbad]
    · rw [ih hrest]
      cases f q <;> rfl

theorem checkedSpans_good {cap : Nat} {l : List α} (hcap : l.length ≤ cap) (h : ∀ p ∈ l, f p = some (g p)) :
    checkedSpans f cap l = some (l.map g) := by
  rw [checkedSpans, if_neg (Nat.not_lt.2 hcap), readSpans_good f g h]

theorem checkedSpans_bad {cap : Nat} {l : List α} (h : cap < l.length ∨ ∃ p ∈ l, f p = none) :
    checkedSpans f cap l = none := by
  unfold checkedSpans
  split
  · rfl
  · next hcap =>
    obtain ⟨p, hp, hbad⟩ := h.resolve_left hcap
    exact readSpans_bad f hp hbad

end

/-- R158, R159: the places in order. -/
theorem placed_getElem (n : Nat) (l : List Span) (k : Fin n) : (placed n l)[k] = l[k.val]? := by
  simp [placed]

/-- Two bounds as a span. -/
abbrev spanOf {w : Nat} (p : BitVec w × BitVec w) : Span := { base := p.1.toNat, limit := p.2.toNat }

theorem pageSpan_good {p : BitVec 40 × BitVec 40} (h : p.1.toNat ≤ p.2.toNat ∧ p.2.toNat < 2 ^ 36) :
    pageSpan p = some (spanOf p) := if_pos ⟨lt_of_le_of_lt h.1 h.2, h.2, h.1⟩

theorem pageSpan_bad {p : BitVec 40 × BitVec 40} (h : 2 ^ 36 ≤ p.1.toNat ∨ 2 ^ 36 ≤ p.2.toNat ∨ p.2.toNat < p.1.toNat) :
    pageSpan p = none := if_neg (by omega)

theorem offsetSpan_good {p : BitVec 16 × BitVec 16} (h : p.1.toNat ≤ p.2.toNat ∧ p.2.toNat ≤ 1023) :
    offsetSpan p = some (spanOf p) := if_pos ⟨h.1.trans h.2, h.2, h.1⟩

theorem offsetSpan_bad {p : BitVec 16 × BitVec 16} (h : 1023 < p.1.toNat ∨ 1023 < p.2.toNat ∨ p.2.toNat < p.1.toNat) :
    offsetSpan p = none := if_neg (by omega)

/-- R158, R159: a list of page pairs that is refused. -/
theorem checkedPages_bad {cap : Nat} {l : List (BitVec 40 × BitVec 40)}
    (h : cap < l.length ∨ ∃ p ∈ l, 2 ^ 36 ≤ p.1.toNat ∨ 2 ^ 36 ≤ p.2.toNat ∨ p.2.toNat < p.1.toNat) :
    checkedSpans pageSpan cap l = none :=
  checkedSpans_bad pageSpan (h.imp_right fun ⟨p, hp, hbad⟩ => ⟨p, hp, pageSpan_bad hbad⟩)

/-! ### The requests -/

section
variable {s : State} {i : SlotId} {a : Answer} (hready : s.linkReady)
include hready

theorem exec_slotSet {r : RawPolicy} (ha : s.doSlotSet i r = a) (helapsed : a.after.elapsed = s.elapsed)
    (hpart : a.partReset = false) :
    exec (.slotSet (slotByte i) r) s = .next (a.after.answering 0x83 a.status.code a.data) :=
  exec_slotRequest (r := .slotSet r) (fun i => s.doSlotSet i r) rfl rfl rfl hready ha helapsed hpart

/-- SLOT.SET against what its record says. -/
theorem slotSet_outcomes (r : RawPolicy) :
    let taken := (sentPolicy r).clamped (s.slot i).ctl.attempts
    let status : Byte := if taken = sentPolicy r then 0x00 else 0x01
    let t := s.setSlot i { s.slot i with policy := taken }
    let done := exec (.slotSet (slotByte i) r) s
    (MisreadPolicy r → done = .next (s.answering 0x83 0x03 []))
    ∧ (¬ MisreadPolicy r →
        ((s.slot i).chan.hold = none ∨ taken.quota ≤ (s.slot i).policy.quota ∨ i ∈ s.poolWait ∨ ¬ (s.slot i).serving
            ∨ (s.slot i).chan.linkUp = false → done = .next (t.answering 0x83 status []))
        ∧ (∀ h, (s.slot i).chan.hold = some h → (s.slot i).policy.quota < taken.quota → i ∉ s.poolWait →
            (s.slot i).serving → (s.slot i).chan.linkUp = true →
              done = .next ((t.reoffers i h).answering 0x83 status []))) := by
  intro taken status t done
  refine ⟨fun hwrong => ?_, fun hright => ?_⟩
  · exact exec_slotSet hready (a := s.refuse .range) (by rw [State.doSlotSet, readPolicy_wrong hwrong]) rfl rfl
  · have hstatus : (if taken = sentPolicy r then ReplyStatus.ok else .clamped).code = status := by
      simp only [status]
      split <;> rfl
    have hdone {u : State} (hu : (if (s.slot i).policy.quota < taken.quota ∧ i ∉ s.poolWait then t.reoffersHold i else t) = u)
        (helapsed : u.elapsed = s.elapsed) : done = .next (u.answering 0x83 status []) := by
      rw [← hstatus]
      exact exec_slotSet hready (a := u.done _) ((State.doSlotSet_eq hright).trans (congrArg (fun v => State.done v _) hu))
        helapsed rfl
    refine ⟨fun hstays => hdone ?_ rfl, fun h hhold hrose hwaits hopen hup => ?_⟩
    · split
      · next hoffered =>
        obtain ⟨hrose, hout⟩ := hoffered
        refine State.reoffersHold_eq_self ?_
        rw [State.slot_setSlot_self]
        obtain hnone | hlow | hwaits | hclosed | hdown := hstays
        · exact .inl hnone
        · exact absurd hrose (Nat.not_lt.2 hlow)
        · exact absurd hwaits hout
        · exact .inr fun k => hclosed k.1
        · exact .inr fun k => by simp [hdown] at k
      · rfl
    · have hreoffered : t.reoffersHold i = t.reoffers i h :=
        State.reoffersHold_eq_reoffers (by rw [State.slot_setSlot_self]; exact hhold)
          (by rw [State.slot_setSlot_self]; exact ⟨hopen, hup⟩)
      exact hdone ((if_pos ⟨hrose, hwaits⟩).trans hreoffered) (hreoffered ▸ t.elapsed_reoffersHold i)

/-- WIN.SET, DENY.SET and FILTER.SET take what is not refused. -/
theorem exec_winSet {pairs : List (BitVec 40 × BitVec 40)} (hlen : pairs.length ≤ 5) (ha : s.doWinSet i pairs = a)
    (helapsed : a.after.elapsed = s.elapsed) (hpart : a.partReset = false) :
    exec (.winSet (slotByte i) pairs) s = .next (a.after.answering 0x89 a.status.code a.data) :=
  exec_slotRequest (r := .winSet pairs) (fun i => s.doWinSet i pairs) rfl (decide_eq_true hlen) rfl hready ha helapsed hpart

theorem winSet_outcomes {pairs : List (BitVec 40 × BitVec 40)} (hlen : pairs.length ≤ 5) :
    ((4 < pairs.length ∨ ∃ p ∈ pairs, 2 ^ 36 ≤ p.1.toNat ∨ 2 ^ 36 ≤ p.2.toNat ∨ p.2.toNat < p.1.toNat) →
      exec (.winSet (slotByte i) pairs) s = .next (s.answering 0x89 0x03 []))
    ∧ (pairs.length ≤ 4 → (∀ p ∈ pairs, p.1.toNat ≤ p.2.toNat ∧ p.2.toNat < 2 ^ 36) →
        exec (.winSet (slotByte i) pairs) s = .next
          ((s.setSlot i { s.slot i with permit.windows := placed 4 (pairs.map spanOf) }).answering 0x89 0x00 [])) := by
  refine ⟨fun hbad => ?_, fun hcap hgood => ?_⟩
  · exact exec_winSet hready hlen (a := s.refuse .range) (by rw [State.doWinSet, checkedPages_bad hbad]) rfl rfl
  · refine exec_winSet hready hlen (a := State.done _ .ok) ?_ rfl rfl
    rw [State.doWinSet, checkedSpans_good pageSpan spanOf hcap fun p hp => pageSpan_good (hgood p hp)]
    rfl

theorem denySet_outcomes {pairs : List (BitVec 40 × BitVec 40)} (hlen : pairs.length ≤ 5) :
    ((2 < pairs.length ∨ ∃ p ∈ pairs, 2 ^ 36 ≤ p.1.toNat ∨ 2 ^ 36 ≤ p.2.toNat ∨ p.2.toNat < p.1.toNat) →
      exec (.denySet 0xFF pairs) s = .next (s.answering 0x8A 0x03 []))
    ∧ (pairs.length ≤ 2 → (∀ p ∈ pairs, p.1.toNat ≤ p.2.toNat ∧ p.2.toNat < 2 ^ 36) →
        exec (.denySet 0xFF pairs) s = .next
          (({ s with deny := placed 2 (pairs.map spanOf) } : State).answering 0x8A 0x00 [])) := by
  have hexec {a : Answer} (ha : s.doDenySet pairs = a) (helapsed : a.after.elapsed = s.elapsed) (hpart : a.partReset = false) :
      exec (.denySet 0xFF pairs) s = .next (a.after.answering 0x8A a.status.code a.data) :=
    exec_partRequest (r := .denySet pairs) rfl (decide_eq_true hlen) (congrArg (s.forPart 0xFF) ha) hready helapsed hpart
  refine ⟨fun hbad => ?_, fun hcap hgood => ?_⟩
  · exact hexec (a := s.refuse .range) (by rw [State.doDenySet, checkedPages_bad hbad]) rfl rfl
  · refine hexec (a := State.done _ .ok) ?_ rfl rfl
    rw [State.doDenySet, checkedSpans_good pageSpan spanOf hcap fun p hp => pageSpan_good (hgood p hp)]

theorem filterSet_outcomes {ranges : List (BitVec 16 × BitVec 16)} (hlen : ranges.length ≤ 14) :
    ((8 < ranges.length ∨ ∃ p ∈ ranges, 1023 < p.1.toNat ∨ 1023 < p.2.toNat ∨ p.2.toNat < p.1.toNat) →
      exec (.filterSet 0xFF ranges) s = .next (s.answering 0x90 0x03 []))
    ∧ (ranges.length ≤ 8 → (∀ p ∈ ranges, p.1.toNat ≤ p.2.toNat ∧ p.2.toNat ≤ 1023) →
        exec (.filterSet 0xFF ranges) s = .next
          (({ s with filter := ranges.map spanOf } : State).answering 0x90 0x00 [])) := by
  have hexec {a : Answer} (ha : s.doFilterSet ranges = a) (helapsed : a.after.elapsed = s.elapsed) (hpart : a.partReset = false) :
      exec (.filterSet 0xFF ranges) s = .next (a.after.answering 0x90 a.status.code a.data) :=
    exec_partRequest (r := .filterSet ranges) rfl (decide_eq_true hlen) (congrArg (s.forPart 0xFF) ha) hready helapsed hpart
  refine ⟨fun hbad => ?_, fun hcap hgood => ?_⟩
  · have hnone : checkedSpans offsetSpan 8 ranges = none :=
      checkedSpans_bad offsetSpan (hbad.imp_right fun ⟨p, hp, hbad⟩ => ⟨p, hp, offsetSpan_bad hbad⟩)
    exact hexec (a := s.refuse .range) (by rw [State.doFilterSet, hnone]) rfl rfl
  · refine hexec (a := State.done _ .ok) ?_ rfl rfl
    rw [State.doFilterSet, checkedSpans_good offsetSpan spanOf hcap fun p hp => offsetSpan_good (hgood p hp)]

/-- R53: SCORE.SET. -/
theorem scoreSet_outcomes (p : RawScore) :
    let epoch := if p.decayEpoch = 0 then 1 else if 1000 < p.decayEpoch.toNat then 1000 else p.decayEpoch.toNat
    (p.warn = 0 ∨ p.fence.toNat ≤ p.warn.toNat → exec (.scoreSet 0xFF p) s = .next (s.answering 0x8C 0x03 []))
    ∧ (p.warn ≠ 0 → p.warn.toNat < p.fence.toNat →
        exec (.scoreSet 0xFF p) s = .next
          (({ s with
              scorer :=
                { timeout := p.timeout.toNat, stray := p.stray.toNat, malformed := p.malformed.toNat
                  errant := p.errant.toNat, linkDown := p.linkDown.toNat, warn := p.warn.toNat
                  fence := p.fence.toNat, decayEpoch := epoch, decayTimer := s.scorer.decayTimer } } : State).answering
            0x8C (if epoch = p.decayEpoch.toNat then 0x00 else 0x01) [])) := by
  intro epoch
  have hepoch : clamp 1 1000 p.decayEpoch.toNat = epoch := by
    have hzero : p.decayEpoch.toNat < 1 ↔ p.decayEpoch = 0 := by
      rw [Nat.lt_one_iff]
      exact ⟨fun h => BitVec.eq_of_toNat_eq h, fun h => by rw [h]; rfl⟩
    rw [clamp_eq_nearer (by decide)]
    simp only [hzero, epoch]
  have hwarn : 1 ≤ p.warn.toNat ↔ p.warn ≠ 0 := by
    rw [Nat.one_le_iff_ne_zero]
    exact not_congr ⟨fun h => BitVec.eq_of_toNat_eq h, fun h => by rw [h]; rfl⟩
  have hexec {a : Answer} (ha : s.doScoreSet p = a) (helapsed : a.after.elapsed = s.elapsed) (hpart : a.partReset = false) :
      exec (.scoreSet 0xFF p) s = .next (a.after.answering 0x8C a.status.code a.data) :=
    exec_partRequest (r := .scoreSet p) rfl rfl (congrArg (s.forPart 0xFF) ha) hready helapsed hpart
  refine ⟨fun hbad => ?_, fun hnonzero hbelow => ?_⟩
  · refine hexec (a := s.refuse .range) (if_neg fun ⟨hone, hlt⟩ => ?_) rfl rfl
    exact hbad.elim (hwarn.1 hone) (Nat.not_le.2 hlt)
  · have hset := hexec (a := State.done _ _) (if_pos ⟨hwarn.2 hnonzero, hbelow⟩) rfl rfl
    rw [hset, hepoch]
    split <;> rfl

end

/-- Settles O56: SLOT.SET, the three lists of pairs and SCORE.SET, each by what it takes and what it refuses. -/
theorem settingRequestsSet : Obligations.SettingRequestsSet := by
  intro s i hready sl
  refine ⟨fun r => ?_, fun pairs hlen => ?_, fun pairs hlen => ?_, fun ranges hlen => filterSet_outcomes hready hlen,
    fun p => scoreSet_outcomes hready p⟩
  · intro wrong near sent taken status t done
    have htaken : sent.clamped sl.ctl.attempts = taken := by
      simp only [Policy.clamped, clamp_eq_nearer, Nat.reduceLeDiff, taken, near]
    have hout := slotSet_outcomes (i := i) hready r
    dsimp only at hout
    rw [show (sentPolicy r).clamped (s.slot i).ctl.attempts = taken from htaken] at hout
    exact hout
  · obtain ⟨hbad, hgood⟩ := winSet_outcomes (i := i) hready hlen
    exact ⟨hbad, fun hcap hpairs => ⟨_, fun k => (placed_getElem 4 _ k).trans (List.getElem?_map ..), hgood hcap hpairs⟩⟩
  · obtain ⟨hbad, hgood⟩ := denySet_outcomes hready hlen
    exact ⟨hbad, fun hcap hpairs => ⟨_, fun k => (placed_getElem 2 _ k).trans (List.getElem?_map ..), hgood hcap hpairs⟩⟩

end Sys2Proof.Machine
end

section
/-! What the slots' operations never read: the counter of free values (log 3), the management link and the requests that wait in the links'
buffering (R8). A part veiled in these goes through every operation as the part itself does; so an operation leaves them as they were. -/

namespace Sys2Proof.Machine

/-! ### The veil -/

/-- Values for what no operation of the slots reads. -/
structure Veil where
  freeCount : Nat
  link : Link
  waiting : SlotId → List Request × List Request

/-- The slot with these requests in its link's buffering, of the host and of the card. -/
def Slot.veil (sl : Slot) (w : List Request × List Request) : Slot :=
  { sl with chan.hostWaiting := w.1, chan.cardWaiting := w.2 }

/-- The part with these values. -/
def State.veil (s : State) (v : Veil) : State :=
  { s with freeCount := v.freeCount, link := v.link, slots := Vector.ofFn fun j => (s.slot j).veil (v.waiting j) }

/-- The values of a part. -/
def State.ownVeil (s : State) : Veil :=
  { freeCount := s.freeCount, link := s.link
    waiting := fun j => ((s.slot j).chan.hostWaiting, (s.slot j).chan.cardWaiting) }

theorem State.slot_veil (s : State) (v : Veil) (j : SlotId) : (s.veil v).slot j = (s.slot j).veil (v.waiting j) := by
  simp [State.veil, State.slot]

theorem State.veil_ownVeil (s : State) : s.veil s.ownVeil = s := by
  have hslots : (s.veil s.ownVeil).slots = s.slots := State.slots_ext fun j => State.slot_veil s s.ownVeil j
  show { s with slots := (s.veil s.ownVeil).slots } = s
  rw [hslots]

section
variable (s : State) (v : Veil) (i : SlotId) (sl : Slot) (w : List Request × List Request)

theorem Slot.veil_ctl : (sl.veil w).ctl = sl.ctl := rfl
theorem Slot.veil_entries : (sl.veil w).entries = sl.entries := rfl
theorem Slot.veil_outbound : (sl.veil w).outbound = sl.outbound := rfl
theorem Slot.veil_permit : (sl.veil w).permit = sl.permit := rfl
theorem Slot.veil_policy : (sl.veil w).policy = sl.policy := rfl
theorem Slot.veil_hold : (sl.veil w).chan.hold = sl.chan.hold := rfl
theorem Slot.veil_cardHold : (sl.veil w).chan.cardHold = sl.chan.cardHold := rfl
theorem Slot.veil_inService : (sl.veil w).inService = sl.inService := rfl
theorem Slot.veil_discharged : (sl.veil w).discharged = sl.discharged := rfl

theorem State.veil_after (n : Nat) : (s.veil v).after n = s.after n := rfl


theorem State.veil_ite (c : Prop) [Decidable c] (t : State) :
    (if c then s else t).veil v = if c then s.veil v else t.veil v := apply_ite (State.veil · v) c s t

theorem State.veil_setSlot (x : Slot) : (s.veil v).setSlot i (x.veil (v.waiting i)) = (s.setSlot i x).veil v := by
  have hslots : ((s.veil v).setSlot i (x.veil (v.waiting i))).slots = ((s.setSlot i x).veil v).slots :=
    State.slots_ext fun j => by
      rw [State.slot_veil, State.slot_setSlot, State.slot_setSlot, State.slot_veil]
      split
      next h => rw [h]
      next => rfl
  show { s with freeCount := v.freeCount, link := v.link, slots := ((s.veil v).setSlot i (x.veil (v.waiting i))).slots } = _
  rw [hslots]
  rfl

theorem State.veil_modSlot (f : Slot → Slot) (hf : ∀ sl w, f (Slot.veil sl w) = (f sl).veil w) :
    (s.veil v).modSlot i f = (s.modSlot i f).veil v := by
  rw [State.modSlot, State.slot_veil, hf, State.veil_setSlot]
  rfl

theorem State.veil_drive (f : Slot → Slot) (hf : ∀ sl w, f (Slot.veil sl w) = (f sl).veil w) :
    (s.veil v).drive i f = (s.drive i f).veil v := by
  rw [State.drive_eq_moved, State.drive_eq_moved, State.slot_veil, hf]
  generalize f (s.slot i) = x
  have hset := s.veil_setSlot v i { x with
    ctl := if (s.slot i).pwren && !x.pwren then x.ctl.powerOffAt s.now x.policy.minOff else x.ctl
    rails := x.rails.after ((s.slot i).pwren != x.pwren) ((s.slot i).pwren && !x.pwren)
    pins := x.pins.after (s.slot i).blinks x.blinks s.now }
  rw [State.moved, State.slot_veil]
  exact congrArg (fun t : State =>
    { t with monitor := s.monitor.after i ((s.slot i).pwren != x.pwren) ((s.slot i).pwren && !x.pwren) }) hset

/-! ### The shared operations -/

theorem State.veil_report (k : ReportKind) (r : Option Reason) (n : Option Nat) :
    (s.veil v).report k i r n = (s.report k i r n).veil v := by
  rw [State.report_eq, State.report_eq]
  rfl

theorem State.veil_reportRestored (n : Nat) (b : Bool) :
    (s.veil v).reportRestored i n b = (s.reportRestored i n b).veil v := by
  rw [State.reportRestored, State.reportRestored, State.offerReport_eq, State.offerReport_eq]
  rfl

theorem State.veil_reportState (r : Option Reason) (n : Option Nat) :
    (s.veil v).reportState i r n = (s.reportState i r n).veil v := by
  rw [State.reportState_eq, State.reportState_eq, State.veil_modSlot, State.stateNote, State.slot_veil]
  · rfl
  · intros; rfl

theorem State.veil_toHost (o : HostOut) : (s.veil v).toHost i o = (s.toHost i o).veil v :=
  s.veil_modSlot v i _ fun _ _ => rfl

theorem State.veil_toCard (o : CardOut) : (s.veil v).toCard i o = (s.toCard i o).veil v :=
  s.veil_modSlot v i _ fun _ _ => rfl

theorem State.veil_countAbsorbed : (s.veil v).countAbsorbed i = (s.countAbsorbed i).veil v :=
  s.veil_modSlot v i _ fun _ _ => rfl

theorem State.veil_countDropped : (s.veil v).countDropped i = (s.countDropped i).veil v :=
  s.veil_modSlot v i _ fun _ _ => rfl

theorem State.veil_setPowerOff : (s.veil v).setPowerOff i = (s.setPowerOff i).veil v := by
  unfold State.setPowerOff
  dsimp only
  rw [State.veil_modSlot, State.veil_ite]
  · rfl
  · intros; rfl

theorem State.veil_poolFree : (s.veil v).poolFree = s.poolFree := by
  simp only [State.poolFree, State.total_eq_sum, State.slot_veil, Slot.veil_entries]

/-! ### The host side -/

theorem State.veil_refuseTag (tag : Tag) : (s.veil v).refuseTag i tag = (s.refuseTag i tag).veil v := by
  rw [State.refuseTag, State.veil_toHost, State.veil_report]
  rfl

theorem State.veil_emptyHold : (s.veil v).emptyHold i = (s.emptyHold i).veil v := by
  rw [State.emptyHold, State.veil_modSlot]
  · rfl
  · intros; rfl

theorem State.veil_holdRequest (r : Request) : (s.veil v).holdRequest i r = (s.holdRequest i r).veil v :=
  s.veil_modSlot v i _ fun _ _ => rfl

theorem State.veil_joinPoolWait : (s.veil v).joinPoolWait i = (s.joinPoolWait i).veil v := by
  rw [State.joinPoolWait, State.joinPoolWait, State.veil_ite]
  rfl

theorem State.veil_admitRequest (r : Request) (arrival deadline : Micros) :
    (s.veil v).admitRequest i r arrival deadline = (s.admitRequest i r arrival deadline).veil v := by
  rw [State.admitRequest, State.veil_modSlot, State.veil_toCard]
  · rfl
  · intros; rfl

theorem State.veil_admission (r : Request) : (s.veil v).admission i r = s.admission i r := by
  rw [State.admission, State.slot_veil, State.veil_poolFree]
  rfl

theorem State.veil_absorb (r : Request) : (s.veil v).absorb i r = (s.absorb i r).veil v := by
  unfold State.absorb
  rw [State.slot_veil, State.veil_ite, State.veil_refuseTag]
  refine if_congr Iff.rfl rfl ?_
  cases r.kind with
  | memWrite | message => exact s.veil_countDropped v i
  | cfgWrite offset mask data =>
    dsimp only
    rw [State.veil_modSlot, State.veil_toHost, State.veil_countAbsorbed]
    · rfl
    · intros; rfl
  | memRead | ioRead | ioWrite | cfgRead =>
    dsimp only
    rw [State.veil_toHost, State.veil_countAbsorbed]
    rfl

theorem State.veil_takeOpen (r : Request) : (s.veil v).takeOpen i r = (s.takeOpen i r).veil v := by
  rw [State.takeOpen, State.takeOpen, State.veil_ite, State.veil_toCard, State.veil_admission]
  refine if_congr Iff.rfl rfl ?_
  cases s.admission i r with
  | collision => exact s.veil_refuseTag v i _
  | quota => exact s.veil_holdRequest v i r
  | pool =>
    dsimp only
    rw [State.veil_holdRequest, State.veil_joinPoolWait]
  | admitted =>
    dsimp only
    rw [State.slot_veil]
    exact s.veil_admitRequest v i r _ _

theorem State.veil_hostArrive (r : Request) : (s.veil v).hostArrive i r = (s.hostArrive i r).veil v := by
  unfold State.hostArrive
  rw [State.slot_veil, State.veil_takeOpen, State.veil_holdRequest, State.veil_absorb]
  simp only [State.veil_ite]
  rfl

theorem State.veil_offerHeld : (s.veil v).offerHeld i = (s.offerHeld i).veil v := by
  unfold State.offerHeld
  rw [State.slot_veil, Slot.veil_hold]
  cases (s.slot i).chan.hold with
  | none => rfl
  | some h =>
    dsimp only
    rw [State.veil_ite, State.veil_ite, State.veil_emptyHold, State.veil_toCard, State.veil_admission]
    refine if_congr Iff.rfl (if_congr Iff.rfl rfl ?_) rfl
    cases s.admission i h.req with
    | collision => exact State.veil_refuseTag _ v i _
    | quota => rfl
    | pool => exact s.veil_joinPoolWait v i
    | admitted => exact State.veil_admitRequest _ v i _ _ _

theorem State.veil_offerAlong (l : List SlotId) : ∀ s : State, State.offerAlong l (s.veil v) = (State.offerAlong l s).veil v := by
  induction l with
  | nil => exact fun s => rfl
  | cons j rest ih =>
    intro s
    unfold State.offerAlong
    dsimp only
    rw [State.slot_veil, State.veil_offerHeld, State.veil_poolFree, State.veil_poolFree, ih, ih, State.veil_ite, State.veil_ite]
    rfl

theorem State.veil_poolOffer : (s.veil v).poolOffer = s.poolOffer.veil v := State.veil_offerAlong v s.poolWait s

theorem State.veil_quotaOffer : (s.veil v).quotaOffer i = (s.quotaOffer i).veil v := by
  rw [State.quotaOffer, State.quotaOffer, State.veil_ite, State.veil_offerHeld]
  rfl

theorem State.veil_freeEntry (tag : Tag) : (s.veil v).freeEntry i tag = (s.freeEntry i tag).veil v := by
  rw [State.freeEntry, State.veil_modSlot, State.veil_poolOffer, State.veil_quotaOffer]
  · rfl
  · intros; rfl

theorem State.veil_absorbHeld : (s.veil v).absorbHeld i = (s.absorbHeld i).veil v := by
  unfold State.absorbHeld
  rw [State.slot_veil, Slot.veil_hold]
  cases (s.slot i).chan.hold with
  | none => rfl
  | some h =>
    dsimp only
    rw [State.veil_emptyHold, State.veil_absorb]

theorem State.veil_blockCard (r : Request) : (s.veil v).blockCard i r = (s.blockCard i r).veil v := by
  rw [State.blockCard, State.blockCard, State.veil_ite, State.veil_toCard]

theorem State.veil_blockHeld : (s.veil v).blockHeld i = (s.blockHeld i).veil v := by
  unfold State.blockHeld
  rw [State.slot_veil, Slot.veil_cardHold]
  cases (s.slot i).chan.cardHold with
  | none => rfl
  | some r =>
    dsimp only
    rw [State.veil_modSlot, State.veil_blockCard]
    intros; rfl

end

end Sys2Proof.Machine
end

section
/-! The same of the ways between the states: the arbiter, discharges, attempts, RESTORING, fences, evaluations and the checker. -/

namespace Sys2Proof.Machine

section
variable (s : State) (v : Veil) (i : SlotId)

/-! ### QUARANTINED, the arbiter, DISCHARGING -/

theorem State.veil_enterQuarantined (r : Reason) : (s.veil v).enterQuarantined i r = (s.enterQuarantined i r).veil v := by
  unfold State.enterQuarantined
  dsimp only
  rw [State.veil_drive]
  · have hrest (u : State) :
        (((u.veil v).setPowerOff i).reportState i (some r) (some (((u.veil v).setPowerOff i).slot i).ctl.attempts)).absorbHeld i =
          (((u.setPowerOff i).reportState i (some r) (some ((u.setPowerOff i).slot i).ctl.attempts)).absorbHeld i).veil v := by
      rw [State.veil_setPowerOff, State.slot_veil, State.veil_reportState, State.veil_absorbHeld]
      rfl
    generalize s.drive i _ = t
    exact hrest { t with arbiter.queue := dropPlace i t.arbiter.queue, arbiter.granted := dropPlace i t.arbiter.granted }
  · intros; rfl

theorem State.veil_budgetFailure : (s.veil v).budgetFailure i = (s.budgetFailure i).veil v := by
  rw [State.budgetFailure, State.slot_veil, State.veil_report, State.veil_enterQuarantined]
  rfl

theorem State.veil_enterRamping : (s.veil v).enterRamping i = (s.enterRamping i).veil v :=
  s.veil_drive v i _ fun _ _ => rfl

theorem State.veil_grantLoop (l : List Place) : ∀ s : State, State.grantLoop l (s.veil v) = (State.grantLoop l s).veil v := by
  induction l with
  | nil => exact fun s => rfl
  | cons p rest ih =>
    intro s
    have hfails := State.veil_budgetFailure { s with arbiter.queue := rest } v p.slot
    have hgrants := State.veil_enterRamping
      { s with arbiter.queue := rest, arbiter.granted := s.arbiter.granted ++ [p] } v p.slot
    unfold State.grantLoop
    rw [State.veil_ite, State.veil_ite, ← ih, ← ih, ← hfails, ← hgrants]
    rfl

theorem State.veil_grantCheck : (s.veil v).grantCheck = s.grantCheck.veil v := State.veil_grantLoop v s.arbiter.queue s

theorem State.veil_release : (s.veil v).release i = (s.release i).veil v :=
  State.veil_grantCheck { s with arbiter.granted := dropPlace i s.arbiter.granted } v

theorem State.veil_depart : (s.veil v).depart i = (s.depart i).veil v := by
  have hcheck := State.veil_grantCheck { s with arbiter.queue := dropPlace i s.arbiter.queue } v
  unfold State.depart
  dsimp only
  rw [State.veil_ite, ← hcheck]
  rfl

theorem State.veil_enterPowerWait : (s.veil v).enterPowerWait i = (s.enterPowerWait i).veil v := by
  unfold State.enterPowerWait
  dsimp only
  rw [State.veil_drive]
  · generalize s.drive i _ = t
    have hcheck := State.veil_grantCheck
      { t with arbiter.queue := t.arbiter.queue ++ [{ slot := i, demand := (t.slot i).policy.demand }] } v
    rw [State.slot_veil, State.veil_ite, ← State.veil_budgetFailure, ← hcheck]
    rfl
  · intros; rfl

theorem State.veil_enterOff : (s.veil v).enterOff i = (s.enterOff i).veil v := by
  unfold State.enterOff
  dsimp only
  rw [State.veil_drive, State.slot_veil, State.veil_reportState]
  · rfl
  · intros; rfl

theorem State.veil_enterEmpty : (s.veil v).enterEmpty i = (s.enterEmpty i).veil v := by
  unfold State.enterEmpty
  dsimp only
  rw [State.veil_drive, State.veil_reportState]
  intros; rfl

theorem State.veil_dischargeCheck : (s.veil v).dischargeCheck i = (s.dischargeCheck i).veil v := by
  unfold State.dischargeCheck
  dsimp only
  rw [State.slot_veil, Slot.veil_ctl, Slot.veil_discharged, State.veil_enterPowerWait, State.veil_enterOff,
    State.veil_enterEmpty, State.veil_ite]
  congr 1
  split
  · rfl
  · rw [State.veil_ite]

theorem State.veil_enterDischarging (target : Target) :
    (s.veil v).enterDischarging i target = (s.enterDischarging i target).veil v := by
  unfold State.enterDischarging
  dsimp only
  rw [State.veil_drive, State.veil_absorbHeld, State.veil_dischargeCheck]
  · rfl
  · intros; rfl

/-! ### Attempts -/

theorem State.veil_enterResetting : (s.veil v).enterResetting i = (s.enterResetting i).veil v :=
  s.veil_drive v i _ fun _ _ => rfl

theorem State.veil_startAttempt (k : ResetKind) (o : Origin) (n : Nat) :
    (s.veil v).startAttempt i k o n = (s.startAttempt i k o n).veil v := by
  unfold State.startAttempt
  dsimp only
  rw [State.veil_modSlot]
  · cases k with
    | warm => exact State.veil_enterResetting _ v i
    | cold =>
      dsimp only
      rw [State.slot_veil, State.veil_enterPowerWait, State.veil_enterDischarging, State.veil_ite]
      rfl
  · intros; rfl

theorem State.veil_firstAttempt : (s.veil v).firstAttempt i = (s.firstAttempt i).veil v := by
  rw [State.firstAttempt, State.slot_veil, State.veil_startAttempt]
  rfl

theorem State.veil_enterIsolated : (s.veil v).enterIsolated i = (s.enterIsolated i).veil v := by
  unfold State.enterIsolated
  dsimp only
  rw [State.veil_drive]
  · generalize s.drive i _ = t
    rw [State.slot_veil, State.veil_reportState]
    generalize hu : t.reportState i (t.slot i).ctl.reason none = u
    have hu' : t.reportState i ((t.slot i).veil (v.waiting i)).ctl.reason none = u := hu
    rw [hu', State.slot_veil, Slot.veil_policy]
    cases (u.slot i).policy.policy with
    | auto => exact u.veil_firstAttempt v i
    | ask => exact u.veil_modSlot v i _ fun _ _ => rfl
    | hold => rfl
  · intros; rfl

theorem State.veil_leaveStage : (s.veil v).leaveStage i = (s.leaveStage i).veil v := by
  unfold State.leaveStage
  rw [State.slot_veil, Slot.veil_ctl]
  cases (s.slot i).ctl.state with
  | ramping => exact s.veil_release v i
  | restoring => exact s.veil_modSlot v i _ fun _ _ => rfl
  | _ => rfl

theorem State.veil_abandon (r : Reason) : (s.veil v).abandon i r = (s.abandon i r).veil v := by
  unfold State.abandon
  dsimp only
  rw [State.slot_veil, State.veil_depart, State.veil_leaveStage, State.veil_ite]
  refine if_congr Iff.rfl (s.veil_modSlot v i _ fun _ _ => rfl) ?_
  generalize hleft : (if (s.slot i).ctl.state = .powerWait then s.depart i else s.leaveStage i) = left
  have hleft' : (if ((s.slot i).veil (v.waiting i)).ctl.state = .powerWait then (s.depart i).veil v else (s.leaveStage i).veil v)
      = left.veil v := by
    rw [← hleft, State.veil_ite]
    rfl
  rw [hleft', State.veil_modSlot, State.veil_enterDischarging]
  intros; rfl

theorem State.veil_abandonAttempt (r : Reason) : (s.veil v).abandonAttempt i r = (s.abandonAttempt i r).veil v := by
  rw [State.abandonAttempt, State.abandonAttempt, State.slot_veil, State.veil_abandon, State.veil_ite]
  rfl

theorem State.veil_powerAway (r : Reason) : (s.veil v).powerAway i r = (s.powerAway i r).veil v := by
  rw [State.powerAway, State.veil_modSlot, State.veil_enterDischarging]
  · rfl
  · intros; rfl

/-! ### ONLINE -/

theorem State.veil_enterOnline : (s.veil v).enterOnline i = (s.enterOnline i).veil v := by
  unfold State.enterOnline
  dsimp only
  rw [State.veil_drive]
  · rw [State.veil_offerHeld]
    generalize (s.drive i _).offerHeld i = t
    rw [State.slot_veil, State.veil_modSlot]
    · rw [State.veil_reportState, State.veil_reportRestored, State.veil_modSlot, State.veil_ite]
      · rfl
      · intros; rfl
    · intros; rfl
  · intros; rfl

theorem State.veil_replayCleared : (s.veil v).replayCleared i = (s.replayCleared i).veil v := by
  unfold State.replayCleared State.replayDone
  dsimp only
  rw [State.slot_veil, State.veil_modSlot]
  · rw [State.veil_enterOnline, State.veil_ite]
    rfl
  · intros; rfl

theorem State.veil_dropImage : (s.veil v).dropImage i = (s.dropImage i).veil v := by
  rw [State.dropImage, State.veil_modSlot, State.veil_replayCleared]
  · rfl
  · intros; rfl

/-! ### Fences and evaluations -/

theorem State.veil_sweepLoop (l : List Entry) :
    ∀ s : State, State.sweepLoop i l (s.veil v) = (State.sweepLoop i l s).veil v := by
  induction l with
  | nil => exact fun s => rfl
  | cons e rest ih =>
    intro s
    rw [State.sweepLoop, State.answerEntry, State.slot_veil, State.veil_toHost, State.veil_freeEntry, ih]
    rfl

theorem State.veil_leaveFencing : (s.veil v).leaveFencing i = (s.leaveFencing i).veil v := by
  unfold State.leaveFencing
  rw [State.slot_veil, Slot.veil_ctl, State.veil_enterDischarging, State.veil_enterIsolated]
  split <;> rfl

theorem State.veil_endDrain : (s.veil v).endDrain i = (s.endDrain i).veil v := by
  rw [State.endDrain, State.sweep, State.slot_veil, State.veil_sweepLoop, State.veil_leaveFencing]
  rfl

theorem State.veil_fence (r : Reason) (d : Disposition) : (s.veil v).fence i r d = (s.fence i r d).veil v := by
  unfold State.fence State.when
  dsimp only
  rw [State.slot_veil, Slot.veil_inService, Slot.veil_policy, State.veil_after, State.veil_drive]
  · generalize s.drive i _ = t
    rw [State.veil_absorbHeld, State.veil_blockHeld, State.slot_veil, Slot.veil_ctl, State.veil_reportState]
    generalize ((t.absorbHeld i).blockHeld i).reportState i _ _ = u
    rw [State.slot_veil, Slot.veil_entries, State.veil_endDrain, State.veil_ite, State.veil_ite]
  · intros; rfl

theorem State.veil_enterService (st : SlotState) : (s.veil v).enterService i st = (s.enterService i st).veil v := by
  unfold State.enterService
  dsimp only
  rw [State.veil_drive, State.slot_veil, State.veil_reportState]
  · rfl
  · intros; rfl

theorem State.veil_evaluate (why : Reason) : (s.veil v).evaluate i why = (s.evaluate i why).veil v := by
  have hverdict : (s.veil v).verdict i = s.verdict i := by
    rw [State.verdict, State.slot_veil]
    rfl
  unfold State.evaluate
  rw [hverdict, State.slot_veil, State.veil_report, State.veil_fence, State.veil_enterService, State.veil_enterService]
  cases s.verdict i <;> rfl

theorem State.veil_cardFault (n : Nat) (why : Reason) : (s.veil v).cardFault i n why = (s.cardFault i n why).veil v := by
  unfold State.cardFault State.when
  dsimp only
  rw [State.veil_modSlot]
  · rw [State.veil_evaluate, State.slot_veil, State.veil_ite]
    rfl
  · intros; rfl

/-! ### The checker and the card's requests -/

theorem State.veil_errant (addr : BitVec 48) (why : Reason) : (s.veil v).errant i addr why = (s.errant i addr why).veil v := by
  unfold State.errant
  dsimp only
  rw [State.slot_veil, State.veil_report, State.veil_modSlot]
  · rw [Slot.veil_permit, ← State.veil_ite, State.veil_cardFault]
    rfl
  · intros; rfl

theorem State.veil_throughChecker (r : Request) : (s.veil v).throughChecker i r = (s.throughChecker i r).veil v := by
  have hcheck (addr : BitVec 48) (len : Nat) : (s.veil v).permitCheck i addr len = s.permitCheck i addr len := by
    rw [State.permitCheck, State.slot_veil]
    rfl
  unfold State.throughChecker
  cases r.kind with
  | memRead addr len =>
    dsimp only
    rw [hcheck, State.veil_toHost, State.veil_toCard]
    cases s.permitCheck i addr len with
    | none => exact State.veil_modSlot _ v i _ fun _ _ => rfl
    | some why => exact State.veil_errant _ v i addr why
  | memWrite addr data =>
    dsimp only
    rw [hcheck]
    cases s.permitCheck i addr data.length with
    | none => exact s.veil_toHost v i _
    | some why => exact s.veil_errant v i addr why
  | _ => exact s.veil_toHost v i _

theorem State.veil_cardOpen (r : Request) : (s.veil v).cardOpen i r = (s.cardOpen i r).veil v := by
  have hhold : (s.veil v).holdCard i r = (s.holdCard i r).veil v := s.veil_modSlot v i _ fun _ _ => rfl
  unfold State.cardOpen
  dsimp only
  rw [State.slot_veil, Slot.veil_outbound, hhold, State.veil_throughChecker, State.veil_toCard, State.veil_report,
    State.veil_ite]
  congr 1
  cases (s.slot i).outbound.lookup r.tag with
  | none => exact (State.veil_ite ..).symm
  | some t => exact (State.veil_ite ..).symm

theorem State.veil_cardArrive (r : Request) : (s.veil v).cardArrive i r = (s.cardArrive i r).veil v := by
  rw [State.cardArrive, State.cardArrive, State.slot_veil, Slot.veil_inService, State.veil_toCard, State.veil_cardOpen,
    State.veil_blockCard, State.veil_ite, State.veil_ite]

/-! ### The pins and the policy -/

theorem State.veil_setPinMode (m : PinMode) : (s.veil v).setPinMode i m = (s.setPinMode i m).veil v := by
  unfold State.setPinMode State.when
  dsimp only
  rw [State.veil_drive]
  · generalize s.drive i _ = t
    rw [State.slot_veil, Slot.veil_ctl, State.veil_modSlot, State.veil_ite]
    · rfl
    · intros; rfl
  · intros; rfl

end

end Sys2Proof.Machine
end

section
/-! O52: the start and the end of a reply (R182, R184, R194). -/
namespace Sys2Proof.Machine

/-! ### What an operation keeps of the link -/

/-- An operation a veil passes through leaves the link as it was. -/
theorem link_of_veil {f : State → State} (h : ∀ s v, f (State.veil s v) = (f s).veil v) (s : State) : (f s).link = s.link := by
  have hown := h s s.ownVeil
  rw [s.veil_ownVeil] at hown
  rw [hown]
  rfl

/-- A property of every answer to a slot request, and of the refusal of its slot byte. -/
theorem forSlot_of {P : Answer → Prop} {s : State} {sb : Byte} {f : SlotId → Answer} (hslot : ∀ i, P (f i))
    (hrefused : P (s.refuse .slot)) : P (s.forSlot sb f) := by
  unfold State.forSlot
  split
  · exact hslot _
  · exact hrefused

section
variable (s : State) (i : SlotId)

theorem link_modSlot_quotaOffer (f : Slot → Slot) : ((s.modSlot i f).quotaOffer i).link = s.link :=
  link_of_veil (f := fun s => s.quotaOffer i) (fun s v => s.veil_quotaOffer v i) (s.modSlot i f)

theorem link_doSlotSet (r : RawPolicy) : (s.doSlotSet i r).after.link = s.link := by
  unfold State.doSlotSet
  split
  · rfl
  · dsimp only [State.done]
    split
    · exact link_modSlot_quotaOffer s i _
    · rfl

theorem link_fence (r : Reason) (d : Disposition) : (s.fence i r d).link = s.link :=
  link_of_veil (f := fun s => s.fence i r d) (fun s v => s.veil_fence v i r d) s

theorem link_startAttempt (k : ResetKind) (o : Origin) (n : Nat) : (s.startAttempt i k o n).link = s.link :=
  link_of_veil (f := fun s => s.startAttempt i k o n) (fun s v => s.veil_startAttempt v i k o n) s

theorem link_doFence : (s.doFence i).after.link = s.link := by
  unfold State.doFence
  split
  · exact link_fence s i _ _
  · rfl

theorem link_doRecover (k : Byte) : (s.doRecover i k).after.link = s.link := by
  unfold State.doRecover
  dsimp only
  split_ifs
  · rfl
  · rfl
  · exact link_startAttempt s i _ _ _
  · exact link_startAttempt s i _ _ _
  · rfl

theorem link_doQuar : (s.doQuar i).after.link = s.link := by
  unfold State.doQuar
  split
  · exact link_of_veil (f := fun s => s.enterQuarantined i .ordered) (fun s v => s.veil_enterQuarantined v i _) s
  · rfl

theorem link_doPwrOn : (s.doPwrOn i).after.link = s.link := by
  unfold State.doPwrOn
  split
  · exact link_startAttempt (s.modSlot i _) i _ _ _
  · rfl

theorem link_doPwrOff : (s.doPwrOff i).after.link = s.link := by
  have habandons : (s.abandonAttempt i .command).link = s.link :=
    link_of_veil (f := fun s => s.abandonAttempt i .command) (fun s v => s.veil_abandonAttempt v i _) s
  unfold State.doPwrOff
  split
  · rfl
  · cases (s.slot i).ctl.state with
    | empty | off | fencing => rfl
    | online | suspect => exact link_fence s i _ _
    | isolated => exact link_of_veil (f := fun s => s.powerAway i .command) (fun s v => s.veil_powerAway v i _) s
    | quarantined =>
      dsimp only [State.done]
      split
      · exact link_of_veil (f := fun s => s.enterOff i) (fun s v => s.veil_enterOff v i) (s.modSlot i _)
      · exact link_of_veil (f := fun s => s.enterEmpty i) (fun s v => s.veil_enterEmpty v i) (s.modSlot i _)
    | discharging | powerWait | ramping | resetting | training | restoring => exact habandons

theorem link_doWinSet (ps : List (BitVec 40 × BitVec 40)) : (s.doWinSet i ps).after.link = s.link := by
  unfold State.doWinSet
  split <;> rfl

theorem link_doDenySet (ps : List (BitVec 40 × BitVec 40)) : (s.doDenySet ps).after.link = s.link := by
  unfold State.doDenySet
  split <;> rfl

theorem link_doFilterSet (rs : List (BitVec 16 × BitVec 16)) : (s.doFilterSet rs).after.link = s.link := by
  unfold State.doFilterSet
  split <;> rfl

theorem link_doBudgetSet (b : Byte) : (s.doBudgetSet b).after.link = s.link :=
  link_of_veil (f := State.grantCheck) (fun s v => s.veil_grantCheck v) { s with arbiter.budget := clamp 1 255 b.toNat }

theorem link_doScoreSet (p : RawScore) : (s.doScoreSet p).after.link = s.link := by
  unfold State.doScoreSet
  dsimp only
  split <;> rfl

theorem link_doImgRead (x : Byte) : (s.doImgRead i x).after.link = s.link := by
  unfold State.doImgRead
  dsimp only
  split <;> rfl

theorem link_doImgPut (o : BitVec 16) (v : Dword) (m : Byte) : (s.doImgPut i o v m).after.link = s.link := by
  unfold State.doImgPut
  dsimp only
  split_ifs <;> rfl

theorem link_doImgDrop : (s.doImgDrop i).after.link = s.link :=
  link_of_veil (f := fun s => s.dropImage i) (fun s v => s.veil_dropImage v i) s

theorem link_doPinMode (m : Byte) : (s.doPinMode i m).after.link = s.link := by
  unfold State.doPinMode
  split
  · rfl
  · split_ifs
    · rfl
    · exact link_of_veil (f := fun s => s.setPinMode i _) (fun s v => s.veil_setPinMode v i _) s
    · rfl

theorem link_doPinLoad (a b c d : Byte) : (s.doPinLoad i a b c d).after.link = s.link := by
  unfold State.doPinLoad
  split
  · rfl
  · next d _ =>
    exact link_of_veil (f := fun s => s.drive i fun sl => { sl with pins.held := d })
      (fun s v => s.veil_drive v i _ fun _ _ => rfl) s

theorem link_doPinSample : (s.doPinSample i).after.link = s.link := by
  unfold State.doPinSample
  dsimp only [State.tell]
  split <;> rfl

end

/-- R186: the rate is the board's; no request changes it. -/
theorem perform_fast (s : State) (sb : Byte) (r : BmcRequest) : (s.perform sb r).after.link.fast = s.link.fast := by
  have hslot {f : SlotId → Answer} (h : ∀ i, (f i).after.link = s.link) : (s.forSlot sb f).after.link.fast = s.link.fast :=
    forSlot_of (P := fun a => a.after.link.fast = s.link.fast) (fun i => congrArg Link.fast (h i)) rfl
  have hpart {a : Answer} (h : a.after.link.fast = s.link.fast) : (s.forPart sb a).after.link.fast = s.link.fast := by
    unfold State.forPart
    split
    · exact h
    · rfl
  cases r with
  | id h => exact hpart (by cases h <;> rfl)
  | slotGet => exact hslot fun i => rfl
  | slotSet p => exact hslot fun i => link_doSlotSet s i p
  | fence => exact hslot (link_doFence s)
  | recover k => exact hslot fun i => link_doRecover s i k
  | quar => exact hslot (link_doQuar s)
  | pwrOn => exact hslot (link_doPwrOn s)
  | pwrOff => exact hslot (link_doPwrOff s)
  | winSet ps => exact hslot fun i => link_doWinSet s i ps
  | denySet ps => exact hpart (congrArg Link.fast (link_doDenySet s ps))
  | budgetSet b => exact hpart (congrArg Link.fast (link_doBudgetSet s b))
  | scoreSet p => exact hpart (congrArg Link.fast (link_doScoreSet s p))
  | imgRead x => exact hslot fun i => link_doImgRead s i x
  | imgPut o v m => exact hslot fun i => link_doImgPut s i o v m
  | imgDrop => exact hslot (link_doImgDrop s)
  | filterSet rs => exact hpart (congrArg Link.fast (link_doFilterSet s rs))
  | pinMode m => exact hslot fun i => link_doPinMode s i m
  | pinLoad a b c d => exact hslot fun i => link_doPinLoad s i a b c d
  | pinSample => exact hslot (link_doPinSample s)
  | railRead => exact hslot fun i => rfl
  | reportTake => exact hpart rfl
  | partReset => exact hpart rfl

/-! ### Replies -/

/-- Section 10.3: the frame the part sends around a payload is one. -/
theorem frameOf_frames (payload : List Byte) : FrameOf payload (frameOf payload) := by
  refine ⟨_, rfl, ?_⟩
  rw [byteSum_eq, byteOf, ← BitVec.ofNat_add, BitVec.toNat_sub, BitVec.toNat_ofNat]
  simp only [BitVec.toNat_ofNat, BitVec.ofNat_eq_ofNat]
  omega

/-- R184: a reply begins at the latest of the moment `ready` and the end of the check byte plus the hold-off. -/
def State.beginsAt (v : State) (ready frameEnd : Nat) (fast : Bool) : State :=
  { v with
    link.inProcess := v.link.inProcess.map fun q =>
      { q with startAt := max ready (frameEnd + v.link.holdOff * (if fast = true then 625 else 5000)) } }

theorem State.reply_beginsAt (a : Answer) (code : Byte) (frameEnd ready now : Nat) :
    State.reply a code frameEnd ready = (State.reply a code now now).beginsAt ready frameEnd a.after.link.fast := rfl

section
variable {s : State} {p : InProcess} (hpor : s.porHeld = false) (hp : s.link.inProcess = some p)
include hpor hp

theorem exec_replyStart (hwaits : p.started = false) (hdue : p.startAt ≤ s.elapsed * 576) :
    exec .replyStart s = .next
      { s with
        link.inProcess := some
          { p with
            started := true
            endAt := p.startAt + (p.reply.length + 3) * (10 * if s.link.fast = true then 625 else 5000) } } := by
  have hexec : exec .replyStart s = .next s.replyStart := next_running _ hpor
  rw [hexec, State.replyStart, hp]
  dsimp only [State.when]
  rw [if_pos (by rw [hwaits, decide_eq_true (show p.startAt ≤ s.lineNow from hdue)]; rfl)]
  rfl

/-- The part with the reply's frame on record and the link idle. -/
def State.replied (s : State) (p : InProcess) : State :=
  { s with
    link.inProcess := none
    link.sent := s.link.sent ++ [{ bytes := frameOf p.reply, whole := true }] }

theorem exec_replySent (hstarted : p.started = true) (hdue : p.endAt ≤ s.elapsed * 576) :
    exec .replySent s = .next
      (if p.partReset = true then (s.replied p).controlReset
      else match s.link.waiting with
        | none => s.replied p
        | some w => ({ s.replied p with link.waiting := none } : State).takeFrame w.payload w.frameEnd p.endAt) := by
  have hexec : exec .replySent s = .next s.replySent := next_running _ hpor
  rw [hexec, State.replySent, hp]
  dsimp only [State.when]
  rw [if_pos (by rw [hstarted, decide_eq_true (show p.endAt ≤ s.lineNow from hdue)]; rfl)]
  rfl

end

/-- Settles O52: the reply by its two moments; what waits is taken by the same frame rules as one that arrives now. -/
theorem repliesAreSent : Obligations.RepliesAreSent := by
  intro s p hpor hp bit
  refine ⟨exec_replyStart hpor hp, fun hstarted hdue => ⟨frameOf p.reply, frameOf_frames p.reply, fun hplain hnone => ?_,
    fun n hplain hcreset => ?_, fun hreset => ?_⟩⟩
  · rw [exec_replySent hpor hp hstarted hdue, if_neg (by simp [hplain]), hnone]
    rfl
  · intro served begins
    have htaken {w : Waiting} (hw : s.link.waiting = some w) :
        exec .replySent s = .next (served.takeFrame w.payload w.frameEnd p.endAt) := by
      rw [exec_replySent hpor hp hstarted hdue, if_neg (by simp [hplain]), hw]
      rfl
    have hready : served.linkReady := ⟨hpor, hcreset, rfl⟩
    refine ⟨fun c sb r hreq hwf hw => ⟨_, exec_of_linkReady hreq hwf hready, ?_⟩, fun payload hw hlow hhigh => ?_⟩
    · rw [htaken hw, takeFrame_encodeRequest served sb (request_wf hreq hwf), State.takeRequest,
        State.reply_beginsAt _ _ _ _ served.lineNow, perform_fast]
      rfl
    · refine ⟨fun hcode => ?_, fun hnonzero hcode hbad => ?_⟩
      · rw [htaken hw, State.takeFrame, parseRequest_unknown hlow hcode]
        exact congrArg begins (State.reply_eq (a := served.refuse .unknown) _ rfl rfl)
      · rw [htaken hw, State.takeFrame, parseRequest_badLength hnonzero hcode hbad]
        exact congrArg begins (State.reply_eq (a := served.refuse .length) _ rfl rfl)
  · rw [exec_replySent hpor hp hstarted hdue, if_pos hreset, State.controlReset_eq]
    rfl

end Sys2Proof.Machine
end

section
/-! O43: the decay event (R48, R50). -/
namespace Sys2Proof.Machine

/-! ### Which slots are evaluated -/

/-- R50: the evaluation does nothing where the score is quiet. -/
theorem Scorer.verdict_stay_iff (p : Scorer) (st : SlotState) (score : Nat) :
    p.verdict st score = .stay ↔ ((st = .online ∨ st = .suspect) → p.quietAt st score) := by
  cases st
  case online | suspect =>
    simp only [Scorer.verdict, Scorer.quietAt, SlotState.isOpen]
    split_ifs <;> simp_all
  all_goals simp [Scorer.verdict, SlotState.isOpen]

/-- The part as the decay event leaves it before the evaluations (R48, R157). -/
def State.decayed (s : State) : State :=
  ({ s with scorer.decayTimer := some (s.now + BitVec.ofNat 32 (1000 * s.scorer.decayEpoch)) } : State).mapSlots Slot.decay

/-- R48, R50: the decayed score of slot `j` is one at which its evaluation does nothing. -/
def State.decaysQuietly (s : State) (j : SlotId) : Prop :=
  (s.slot j).serving → s.scorer.quietAt (s.slot j).ctl.state ((s.slot j).ctl.score * 3 / 4)

section
variable {s : State}

theorem State.slot_decayed (s : State) (j : SlotId) : s.decayed.slot j = (s.slot j).decay := State.slot_mapSlots ..

theorem State.decayed_thresholds (s : State) :
    s.decayed.scorer.fence = s.scorer.fence ∧ s.decayed.scorer.warn = s.scorer.warn := ⟨rfl, rfl⟩

theorem Slot.decay_score {sl : Slot} (h : sl.serving) : sl.decay.ctl.score = sl.ctl.score * 3 / 4 :=
  if_pos (Slot.inService_of_serving h)

theorem State.verdict_decayed_iff (s : State) (j : SlotId) : s.decayed.verdict j = .stay ↔ s.decaysQuietly j := by
  rw [State.verdict, State.slot_decayed, Scorer.verdict_stay_iff]
  refine forall_congr' fun hserves => ?_
  rw [Slot.decay_score (show (s.slot j).serving from hserves)]
  exact Iff.rfl

/-- The slots whose evaluation acts, in the order of their numbers. -/
abbrev State.acting (s : State) : List SlotId := Config.slotIds.filter fun i => s.verdict i != .stay

theorem State.mem_acting (s : State) (j : SlotId) : j ∈ s.decayed.acting ↔ ¬ s.decaysQuietly j := by
  rw [List.mem_filter, ← s.verdict_decayed_iff, bne_iff_ne]
  exact and_iff_right (mem_slotIds j)

theorem State.nodup_acting (s : State) : s.acting.Nodup := List.Nodup.filter _ (by decide)

theorem exec_decayEvent (hpor : s.porHeld = false) (hdue : s.scorer.decayTimer = some s.now) :
    exec .decayEvent s = .next (s.decayed.evaluateAll s.decayed.acting.length s.decayed.acting) := by
  have hexec : exec .decayEvent s = .next s.decayEvent := next_running _ hpor
  rw [hexec, State.decayEvent, State.when, if_pos (State.due_iff.2 hdue)]
  rfl

end

/-! ### The order of the evaluations -/

/-- An operation a veil passes through does not read the counter of free values. -/
theorem freeCount_of_veil {f : State → State} (h : ∀ s v, f (State.veil s v) = (f s).veil v) (s : State) (n : Nat) :
    f { s with freeCount := n } = { f s with freeCount := n } := by
  have hown : f s = (f s).veil s.ownVeil := by rw [← h, s.veil_ownVeil]
  calc f { s with freeCount := n }
      = f (s.veil { s.ownVeil with freeCount := n }) :=
        congrArg (fun t : State => f { t with freeCount := n }) s.veil_ownVeil.symm
    _ = (f s).veil { s.ownVeil with freeCount := n } := h _ _
    _ = { f s with freeCount := n } := congrArg (fun t : State => ({ t with freeCount := n } : State)) hown.symm

/-- R48: the slots of a list evaluated in the list's order. -/
def State.evaluatesEach (s : State) (l : List SlotId) : State := l.foldl (fun t j => t.evaluates j .decay) s

theorem State.evaluates_freeCount (s : State) (j : SlotId) (n : Nat) :
    ({ s with freeCount := n } : State).evaluates j .decay = { s.evaluates j .decay with freeCount := n } := by
  simp only [← State.evaluate_eq]
  exact freeCount_of_veil (f := fun s => s.evaluate j .decay) (fun s v => s.veil_evaluate v j .decay) s n

theorem State.evaluates_recounted (s : State) (j : SlotId) (n m : Nat) :
    ({ ({ s with freeCount := n } : State).evaluates j .decay with freeCount := m } : State) =
      ({ s with freeCount := m } : State).evaluates j .decay := by
  rw [s.evaluates_freeCount j n, s.evaluates_freeCount j m]

theorem State.evaluateAll_eq (n : Nat) : ∀ (l : List SlotId) (s : State), l.length = n →
    ∃ (l' : List SlotId) (m : Nat), l'.Perm l ∧
      State.evaluateAll n l s = State.evaluatesEach { s with freeCount := m } l' := by
  induction n with
  | zero =>
    intro l s hl
    obtain rfl := List.length_eq_zero_iff.1 hl
    exact ⟨[], s.freeCount, .refl _, rfl⟩
  | succ n ih =>
    intro l s hl
    match l with
    | [i] => exact ⟨[i], s.freeCount, .refl _, s.evaluate_eq i .decay⟩
    | i :: j :: rest =>
      set k := Config.pick s.freeCount % (i :: j :: rest).length with hk
      have hlt : k < (i :: j :: rest).length := Nat.mod_lt _ (Nat.succ_pos _)
      set picked := (i :: j :: rest).getD k i with hpicked
      have hget : picked = (i :: j :: rest)[k] := by rw [hpicked, List.getD_eq_getElem _ _ hlt]
      obtain ⟨l', m, hperm, heq⟩ := ih ((i :: j :: rest).eraseIdx k)
        (({ s with freeCount := s.freeCount + 1 } : State).evaluate picked .decay)
        (by rw [List.length_eraseIdx_of_lt hlt, hl]; rfl)
      refine ⟨picked :: l', m, ?_, ?_⟩
      · rw [hget]
        exact (List.Perm.cons _ hperm).trans (List.getElem_cons_eraseIdx_perm hlt)
      · rw [State.evaluateAll, heq, State.evaluate_eq, State.evaluates_recounted]
        rfl

/-! ### One slot's evaluation -/

section
variable {s : State} {i : SlotId} (hserves : (s.slot i).serving)
include hserves

theorem State.decayed_fences (hhigh : s.scorer.fence ≤ (s.slot i).ctl.score * 3 / 4) :
    s.decayed.evaluates i .decay =
      (s.decayed.reporting (s.note .hang i (some .decay) (some ((s.slot i).ctl.score * 3 / 4)))).fences i .score .recover := by
  have hserves' : (s.decayed.slot i).serving := by rw [State.slot_decayed]; exact hserves
  have hscore : (s.decayed.slot i).ctl.score = (s.slot i).ctl.score * 3 / 4 := by
    rw [State.slot_decayed, Slot.decay_score hserves]
  unfold State.evaluates
  dsimp only
  rw [if_neg (not_not_intro hserves'), hscore, s.decayed_thresholds.1, if_pos hhigh]
  rfl

/-- R50: below the fence threshold the slot moves between ONLINE and SUSPECT. -/
theorem State.decayed_moves (hlow : (s.slot i).ctl.score * 3 / 4 < s.scorer.fence) (hacts : ¬ s.decaysQuietly i)
    {st : SlotState} (hst : (s.slot i).ctl.state = .online ∧ st = .suspect ∨ (s.slot i).ctl.state = .suspect ∧ st = .online) :
    s.decayed.evaluates i .decay =
      (s.decayed.moved i
        { s.decayed.slot i with
          chan.gateOpen := true, ctl := { (s.decayed.slot i).ctl.into st with lastReported := st } }).reporting
        (s.stateNote i st (some .score) (some ((s.slot i).ctl.score * 3 / 4))) := by
  have hserves' : (s.decayed.slot i).serving := by rw [State.slot_decayed]; exact hserves
  have hscore : (s.decayed.slot i).ctl.score = (s.slot i).ctl.score * 3 / 4 := by
    rw [State.slot_decayed, Slot.decay_score hserves]
  have hstate : (s.decayed.slot i).ctl.state = (s.slot i).ctl.state := by rw [State.slot_decayed]; rfl
  have hnote : ∀ n, s.decayed.stateNote i st (some .score) n = s.stateNote i st (some .score) n := by
    intro n
    rw [State.stateNote, State.slot_decayed]
    rfl
  have hmoves : s.decayed.evaluates i .decay = s.decayed.serves i st := by
    have hquiet : ¬ s.scorer.quietAt (s.slot i).ctl.state ((s.slot i).ctl.score * 3 / 4) := fun h => hacts fun _ => h
    unfold State.evaluates
    dsimp only
    obtain ⟨hfence, hwarn⟩ := s.decayed_thresholds
    rw [if_neg (not_not_intro hserves'), hscore, hstate, hfence, hwarn, if_neg (Nat.not_le.2 hlow)]
    obtain ⟨hon, rfl⟩ | ⟨hsus, rfl⟩ := hst
    · have hhigh : s.scorer.warn ≤ (s.slot i).ctl.score * 3 / 4 := by
        by_contra hbelow
        exact hquiet ⟨hlow, fun _ => Nat.lt_of_not_le hbelow, fun hsus => by simp [hon] at hsus⟩
      exact if_pos ⟨hon, hhigh⟩
    · have hcalm : (s.slot i).ctl.score * 3 / 4 < s.scorer.warn / 2 := by
        by_contra habove
        exact hquiet ⟨hlow, fun hon => by simp [hsus] at hon, fun _ => Nat.le_of_not_lt habove⟩
      rw [if_neg (by simp [hsus]), if_pos ⟨hsus, hcalm⟩]
  rw [hmoves, State.serves, hscore, hnote]

end

/-- Settles O43: `evaluateAll_eq` for the order, and the evaluation of one slot by its thresholds. -/
theorem decayEventDecaysEveryScore : Obligations.DecayEventDecaysEveryScore := by
  intro s hpor hdue decayed quiet
  have hdecayed : decayed = s.decayed := rfl
  refine ⟨fun hquiet => ?_, fun i hothers hacts => ⟨?_, ?_⟩, ?_⟩
  · have hnone : s.decayed.acting = [] := List.eq_nil_iff_forall_not_mem.2 fun j hj => (s.mem_acting j).1 hj (hquiet j)
    rw [exec_decayEvent hpor hdue, hnone, hdecayed]
    rfl
  · have hone : s.decayed.acting = [i] := by
      refine List.perm_singleton.1 ((List.perm_ext_iff_of_nodup s.decayed.nodup_acting (List.nodup_singleton i)).2 fun j => ?_)
      rw [s.mem_acting, List.mem_singleton]
      exact ⟨fun hj => by_contra fun hne => hj (hothers j hne), fun hj => hj ▸ hacts⟩
    rw [exec_decayEvent hpor hdue, hone, hdecayed, ← State.evaluate_eq]
    rfl
  · have hserves : (s.slot i).serving := by_contra fun hno => hacts fun h => absurd h hno
    intro score x moves
    exact ⟨State.decayed_fences hserves, fun hlow hon => State.decayed_moves hserves hlow hacts (.inl ⟨hon, rfl⟩),
      fun hlow hsus => State.decayed_moves hserves hlow hacts (.inr ⟨hsus, rfl⟩)⟩
  · obtain ⟨l, n, hperm, heq⟩ := State.evaluateAll_eq _ s.decayed.acting s.decayed rfl
    exact ⟨l, n, hperm.nodup_iff.2 s.decayed.nodup_acting, fun j => hperm.mem_iff.trans (s.mem_acting j),
      (exec_decayEvent hpor hdue).trans (congrArg _ heq)⟩

end Sys2Proof.Machine
end

section
/-! O2: the idle step (R8, R199), and the arrival of a request that waited as of one with nothing before it. -/
namespace Sys2Proof.Machine

/-! ### The requests that wait -/

/-- An operation a veil passes through leaves what the veil covers. -/
theorem ownVeil_of_veil {f : State → State} (h : ∀ s v, f (State.veil s v) = (f s).veil v) (s : State) :
    (f s).ownVeil = s.ownVeil := by
  have hown := h s s.ownVeil
  rw [s.veil_ownVeil] at hown
  rw [hown]
  have hwaiting : ((f s).veil s.ownVeil).ownVeil.waiting = s.ownVeil.waiting := by
    funext j
    show ((((f s).veil s.ownVeil).slot j).chan.hostWaiting, (((f s).veil s.ownVeil).slot j).chan.cardWaiting) = _
    rw [State.slot_veil]
    rfl
  show ({ freeCount := s.freeCount, link := s.link, waiting := ((f s).veil s.ownVeil).ownVeil.waiting } : Veil) = _
  rw [hwaiting]
  rfl

/-- The values of a part with other requests waiting at slot `i`. -/
def Veil.awaiting (v : Veil) (i : SlotId) (w : List Request × List Request) : Veil :=
  { v with waiting := Function.update v.waiting i w }

theorem State.setSlot_veil (s : State) (i : SlotId) (w : List Request × List Request) :
    s.setSlot i ((s.slot i).veil w) = s.veil (s.ownVeil.awaiting i w) := by
  have hslots : (s.setSlot i ((s.slot i).veil w)).slots = (s.veil (s.ownVeil.awaiting i w)).slots :=
    State.slots_ext fun j => by
      have hwaiting : (s.ownVeil.awaiting i w).waiting j = if j = i then w else s.ownVeil.waiting j :=
        Function.update_apply ..
      rw [State.slot_setSlot, State.slot_veil, hwaiting]
      by_cases hji : j = i
      · rw [if_pos hji, if_pos hji, hji]
      · rw [if_neg hji, if_neg hji]
        rfl
  show { s with slots := (s.setSlot i ((s.slot i).veil w)).slots } = _
  rw [hslots]
  rfl

/-- R8: what waits in a link's buffering has no part in an operation a veil passes through. -/
theorem setSlot_veil_of_veil {f : State → State} (h : ∀ s v, f (State.veil s v) = (f s).veil v) (s : State) (i : SlotId)
    (w : List Request × List Request) :
    f (s.setSlot i ((s.slot i).veil w)) = (f s).setSlot i (((f s).slot i).veil w) := by
  rw [State.setSlot_veil, h, State.setSlot_veil, ownVeil_of_veil h]

section
variable {f : State → State} (h : ∀ s v, f (State.veil s v) = (f s).veil v)
include h

theorem slot_waiting_of_veil (s : State) (i : SlotId) :
    ((f s).slot i).chan.hostWaiting = (s.slot i).chan.hostWaiting ∧ ((f s).slot i).chan.cardWaiting = (s.slot i).chan.cardWaiting :=
  Prod.mk.inj (congrFun (congrArg Veil.waiting (ownVeil_of_veil h s)) i)

/-- R8: the operation with some requests waiting is the one with others, which then wait on. -/
theorem rewaiting_of_veil (s : State) (i : SlotId) (w w' : List Request × List Request) :
    let t := f (s.setSlot i ((s.slot i).veil w))
    f (s.setSlot i ((s.slot i).veil w')) = t.setSlot i ((t.slot i).veil w') := by
  intro t
  have hveiled := setSlot_veil_of_veil h (s.setSlot i ((s.slot i).veil w)) i w'
  rw [State.slot_setSlot_self, State.setSlot_setSlot] at hveiled
  exact hveiled

theorem hostWaiting_of_veil (s : State) (i : SlotId) (rest : List Request) :
    let t := f (s.setSlot i { s.slot i with chan.hostWaiting := [] })
    f (s.setSlot i { s.slot i with chan.hostWaiting := rest }) = t.setSlot i { t.slot i with chan.hostWaiting := rest } := by
  intro t
  have hkept : (t.slot i).chan.cardWaiting = (s.slot i).chan.cardWaiting := by
    rw [(slot_waiting_of_veil h _ i).2, State.slot_setSlot_self]
  have hveil : ({ t.slot i with chan.hostWaiting := rest } : Slot) = (t.slot i).veil (rest, (s.slot i).chan.cardWaiting) := by
    rw [← hkept]
    rfl
  rw [hveil]
  exact rewaiting_of_veil h s i ([], (s.slot i).chan.cardWaiting) (rest, (s.slot i).chan.cardWaiting)

theorem cardWaiting_of_veil (s : State) (i : SlotId) (rest : List Request) :
    let t := f (s.setSlot i { s.slot i with chan.cardWaiting := [] })
    f (s.setSlot i { s.slot i with chan.cardWaiting := rest }) = t.setSlot i { t.slot i with chan.cardWaiting := rest } := by
  intro t
  have hkept : (t.slot i).chan.hostWaiting = (s.slot i).chan.hostWaiting := by
    rw [(slot_waiting_of_veil h _ i).1, State.slot_setSlot_self]
  have hveil : ({ t.slot i with chan.cardWaiting := rest } : Slot) = (t.slot i).veil ((s.slot i).chan.hostWaiting, rest) := by
    rw [← hkept]
    rfl
  rw [hveil]
  exact rewaiting_of_veil h s i ((s.slot i).chan.hostWaiting, []) ((s.slot i).chan.hostWaiting, rest)

end

/-! ### The idle step -/

/-- R8: an arrival is owed where a request waits and may arrive. -/
theorem State.hostMayArrive_of_owed {s : State} {i : SlotId} (h : .hostArrival i ∈ s.owed) :
    (s.slot i).hostMayArrive = true := by
  simp only [State.owed, State.sharedOwed, State.slotOwed, List.mem_append, List.mem_flatMap, Owed.mem_if, List.mem_map,
    reduceCtorEq, and_false, or_false, false_or, exists_false, Owed.hostArrival.injEq] at h
  obtain ⟨j, -, harrives, rfl⟩ := h
  exact harrives

theorem State.cardMayArrive_of_owed {s : State} {i : SlotId} (h : .cardArrival i ∈ s.owed) :
    (s.slot i).cardMayArrive = true := by
  simp only [State.owed, State.sharedOwed, State.slotOwed, List.mem_append, List.mem_flatMap, Owed.mem_if, List.mem_map,
    reduceCtorEq, and_false, or_false, false_or, exists_false, Owed.cardArrival.injEq] at h
  obtain ⟨j, -, harrives, rfl⟩ := h
  exact harrives

section
variable {s : State}

theorem step_of_idle (hpending : s.pending = []) : step s = s.idle := by rw [step, hpending]

theorem State.idle_of_quiet (hpor : s.porHeld = false) (howed : s.owed = []) :
    s.idle = .next { s with elapsed := s.elapsed + 1 } := by
  rw [State.idle, if_neg (by simp [hpor]), howed]
  rfl

theorem State.idle_of_single {e : Owed} (hpor : s.porHeld = false) (howed : s.owed = [e]) : s.idle = s.takeOwed e := by
  rw [State.idle, if_neg (by simp [hpor]), howed]

/-- Log 3: of what is owed one is taken, with the counter of free values at some value. -/
theorem State.idle_takes (hpor : s.porHeld = false) (howed : s.owed ≠ []) :
    ∃ e ∈ s.owed, ∃ n, s.idle = State.takeOwed { s with freeCount := n } e := by
  match hall : s.owed with
  | [] => exact absurd hall howed
  | [e] => exact ⟨e, List.mem_singleton_self e, s.freeCount, State.idle_of_single hpor hall⟩
  | e :: d :: l =>
    have hlt : Config.pick s.freeCount % (e :: d :: l).length < (e :: d :: l).length := Nat.mod_lt _ (Nat.succ_pos _)
    refine ⟨(e :: d :: l).getD (Config.pick s.freeCount % (e :: d :: l).length) e, ?_, s.freeCount + 1, ?_⟩
    · rw [List.getD_eq_getElem _ _ hlt]
      exact List.getElem_mem hlt
    · rw [State.idle, if_neg (by simp [hpor]), hall]

end

/-! ### Arrivals -/

section
variable {s u : State} {i : SlotId} {r : Request} {rest : List Request} (hpor : u.porHeld = false)
  (hslot : u.slot i = s.slot i) (hwf : r.wf = true)
include hpor hslot hwf

/-- R8: the oldest request of the host that waits arrives as with nothing before it. -/
theorem takeHostWaiting_arrives (hmay : (s.slot i).hostMayArrive = true) (hwaits : (s.slot i).chan.hostWaiting = r :: rest) :
    ∃ t, exec (.hostRequest i r) (u.setSlot i { s.slot i with chan.hostWaiting := [] }) = .next t
      ∧ u.takeHostWaiting i = t.setSlot i { t.slot i with chan.hostWaiting := rest } := by
  simp only [Slot.hostMayArrive, Bool.and_eq_true, Bool.not_eq_true', Option.isNone_iff_eq_none] at hmay
  obtain ⟨⟨hrunning, hhold⟩, -⟩ := hmay
  have hclear : ((u.setSlot i { s.slot i with chan.hostWaiting := [] }).slot i).hostClear := by
    rw [State.slot_setSlot_self]
    exact ⟨hrunning, hhold, rfl⟩
  refine ⟨_, exec_hostRequest_of_hostClear (s := u.setSlot i _) hwf hpor hclear, ?_⟩
  rw [State.takeHostWaiting, hslot, hwaits, ← hslot]
  exact hostWaiting_of_veil (f := fun s => s.hostArrive i r) (fun s v => s.veil_hostArrive v i r) u i rest

theorem takeCardWaiting_arrives (hmay : (s.slot i).cardMayArrive = true) (hwaits : (s.slot i).chan.cardWaiting = r :: rest) :
    ∃ t, exec (.cardRequest i r) (u.setSlot i { s.slot i with chan.cardWaiting := [] }) = .next t
      ∧ u.takeCardWaiting i = t.setSlot i { t.slot i with chan.cardWaiting := rest } := by
  simp only [Slot.cardMayArrive, Bool.and_eq_true, Option.isNone_iff_eq_none] at hmay
  obtain ⟨⟨hup, hhold⟩, -⟩ := hmay
  have hclear : ((u.setSlot i { s.slot i with chan.cardWaiting := [] }).slot i).cardClear := by
    rw [State.slot_setSlot_self]
    exact ⟨hup, hhold, rfl⟩
  refine ⟨_, (exec_cardRequest (s := u.setSlot i _) i hwf hpor).trans
    (congrArg _ (State.cardRequest_of_cardClear r hclear)), ?_⟩
  rw [State.takeCardWaiting, hslot, hwaits, ← hslot]
  exact cardWaiting_of_veil (f := fun s => s.cardArrive i r) (fun s v => s.veil_cardArrive v i r) u i rest

end

/-- Settles O2: what the idle step takes, and an arrival by what a veil passes through. -/
theorem idleStepPassesTime : Obligations.IdleStepPassesTime := by
  intro s hpending
  rw [step_of_idle hpending]
  refine ⟨fun hpor => if_pos hpor, State.idle_of_quiet, fun c hpor howed => State.idle_of_single hpor howed,
    fun hpor howed => ?_⟩
  obtain ⟨e, he, n, hidle⟩ := State.idle_takes hpor howed
  rw [hidle]
  cases e with
  | event c => exact ⟨_, he, n, fun d hd => by rw [Owed.event.inj hd]; rfl, nofun, nofun, nofun⟩
  | conversion => exact ⟨_, he, n + 1, nofun, fun _ => ⟨_, rfl⟩, nofun, nofun⟩
  | hostArrival j =>
    refine ⟨_, he, n, nofun, nofun, fun i r rest hi hwaits hwf => ?_, nofun⟩
    obtain rfl := Owed.hostArrival.inj hi
    obtain ⟨t, hexec, ht⟩ := takeHostWaiting_arrives (s := s) (u := { s with freeCount := n }) hpor rfl hwf
      (State.hostMayArrive_of_owed he) hwaits
    exact ⟨t, hexec, congrArg _ ht⟩
  | cardArrival j =>
    refine ⟨_, he, n, nofun, nofun, nofun, fun i r rest hi hwaits hwf => ?_⟩
    obtain rfl := Owed.cardArrival.inj hi
    obtain ⟨t, hexec, ht⟩ := takeCardWaiting_arrives (s := s) (u := { s with freeCount := n }) hpor rfl hwf
      (State.cardMayArrive_of_owed he) hwaits
    exact ⟨t, hexec, congrArg _ ht⟩

end Sys2Proof.Machine
end
